-- ==== Sys2Proof/Word.lean ====
section
/-!
DEFINITION. The word types of the core and their plainest conversions (spec 00_scope.md R9, R11, R12).
-/

namespace Sys2Proof

/-- A register, a command word or a response datum: `DATA_W = CMD_W = 32` bits (R9). -/
abbrev Word := BitVec 32

/-- A byte of a stream, `ACC`, `OUTBUF` or `UBYTE` (R31 to R33). -/
abbrev Byte := BitVec 8

/-- `zext_32(v)` of R12. -/
abbrev zext32 {n : Nat} (v : BitVec n) : Word := v.setWidth 32

/-- A one-bit signal as a number (R22). -/
abbrev bit (b : Bool) : BitVec 1 := BitVec.ofBool b

end Sys2Proof
end

