-- ==== Sys2Proof/Config.lean ====
section
/-!
DEFINITION. What is fixed for the machine (00_scope.md R9, R10), what the environment chooses in a cycle (10_state.md R22,
70_reset_and_hazards.md R280), and the free values: constants with no body, of which nothing can be proved.
-/

namespace Sys2Proof

/-- The value of register `ID` (R9, R39), ASCII "BVC0". -/
def Config.idValue : Word := 0x42564330#32

/-- The input ports of one clock cycle (R22), less `cmd_word` and `bi_data`: the host's queue and the byte source hold those,
so that a presented word or byte stays the same until it is taken (R72, R88, R280; assumption log 1, 3, 4).
`cmdValid` and `biValid` say that the host, the source, presents what it has, if it has anything. -/
structure Inputs where
  rst        : Bool
  tick       : Bool
  cmdValid   : Bool
  rspReady   : Bool
  boReady    : Bool
  biValid    : Bool
  frameReady : Bool
  rdDone     : Bool
  rdErr      : Bool
  deriving DecidableEq, Repr, Inhabited

/-- A cycle in which the environment does nothing: every input port low. -/
def Inputs.idle : Inputs :=
  { rst := false, tick := false, cmdValid := false, rspReady := false, boReady := false, biValid := false,
    frameReady := false, rdDone := false, rdErr := false }

/-- The environment's choice in a cycle for which the state schedules no inputs, by the number of the cycle.
FREE VALUE: R280's liberties, any choice (assumption log 2). -/
opaque Config.freeInputs : Nat → Inputs

/-- The number of `tick` pulses per second.  The core never uses it (R10); OPEN in the spec (assumption log 16). -/
opaque Config.tickHz : Nat

/-- `a div 0` and `a mod 0`, which R12 gives no value.  FREE VALUES: met only by `FI_SPLIT` in a state with
`FI_WIDTH = 0` and `FI_RES ≠ 0`, which R55 item 3 rules out (assumption log 13). -/
opaque Config.divByZero : Nat → Nat
opaque Config.modByZero : Nat → Nat

end Sys2Proof
end

