-- ==== Sys2Proof/Syntax.lean ====
section
/-!
DEFINITION. The commands (30_encoding.md R99), one constructor per row of spec/opcode_table.json.  Each operand has its field's
width (R92 to R98), so every term is a command that some word encodes.
-/

namespace Sys2Proof

/-- The 14 commands of R99. -/
inductive Instr where
  /-- `NOP` (R120) -/
  | nop
  /-- `RD reg` (R121) -/
  | rd (reg : BitVec 6)
  /-- `WR h, reg, imm` (R122) -/
  | wr (h : BitVec 1) (reg : BitVec 6) (imm : BitVec 16)
  /-- `PK_BIT p` (R141) -/
  | pkBit (p : BitVec 1)
  /-- `PK_BITS n, d` (R142) -/
  | pkBits (n : BitVec 4) (d : BitVec 8)
  /-- `PK_FLUSH` (R143) -/
  | pkFlush
  /-- `PK_CLR` (R144) -/
  | pkClr
  /-- `UP_BIT` (R161) -/
  | upBit
  /-- `UP_CLR` (R162) -/
  | upClr
  /-- `FI_CFG W, H` (R181) -/
  | fiCfg (a : BitVec 13) (b : BitVec 13)
  /-- `FI_ADDR r, c` (R182) -/
  | fiAddr (a : BitVec 13) (b : BitVec 13)
  /-- `FI_SPLIT` (R183) -/
  | fiSplit
  /-- `FI_COUNT` (R184) -/
  | fiCount
  /-- `SC_START` (R202) -/
  | scStart
  deriving DecidableEq, Repr

end Sys2Proof
end

