-- ==== Sys2Proof/WellFormed.lean ====
section
/-!
DEFINITION. Well-formedness (30_encoding.md R104).  A term of `Instr` has no ill-formed operand: each operand's type is its
field's width.  What can be ill formed is a command as it is WRITTEN, with numbers for operands: the assembler refuses an
operand that does not fit its field.
-/

namespace Sys2Proof

/-- A command as written: the constructors of `Instr`, with unbounded numbers for operands (R104). -/
inductive Written where
  | nop
  | rd (reg : Nat)
  | wr (h reg imm : Nat)
  | pkBit (p : Nat)
  | pkBits (n d : Nat)
  | pkFlush
  | pkClr
  | upBit
  | upClr
  | fiCfg (a b : Nat)
  | fiAddr (a b : Nat)
  | fiSplit
  | fiCount
  | scStart
  deriving DecidableEq, Repr

/-- Every operand fits its field: "p > 1, n > 15, d > 255, a or b > 8191, imm > 0xFFFF" are refused (R104); a value that fits
and is out of range is not (R102). -/
def Written.wellFormed : Written → Bool
  | .nop | .pkFlush | .pkClr | .upBit | .upClr | .fiSplit | .fiCount | .scStart => true
  | .rd reg => decide (reg < 64)
  | .wr h reg imm => decide (h < 2) && decide (reg < 64) && decide (imm < 65536)
  | .pkBit p => decide (p < 2)
  | .pkBits n d => decide (n < 16) && decide (d < 256)
  | .fiCfg a b => decide (a < 8192) && decide (b < 8192)
  | .fiAddr a b => decide (a < 8192) && decide (b < 8192)

/-- The command a well-formed written command stands for. -/
def Written.toInstr? (c : Written) : Option Instr :=
  if c.wellFormed then
    some (match c with
      | .nop => .nop
      | .rd reg => .rd (BitVec.ofNat 6 reg)
      | .wr h reg imm => .wr (BitVec.ofNat 1 h) (BitVec.ofNat 6 reg) (BitVec.ofNat 16 imm)
      | .pkBit p => .pkBit (BitVec.ofNat 1 p)
      | .pkBits n d => .pkBits (BitVec.ofNat 4 n) (BitVec.ofNat 8 d)
      | .pkFlush => .pkFlush
      | .pkClr => .pkClr
      | .upBit => .upBit
      | .upClr => .upClr
      | .fiCfg a b => .fiCfg (BitVec.ofNat 13 a) (BitVec.ofNat 13 b)
      | .fiAddr a b => .fiAddr (BitVec.ofNat 13 a) (BitVec.ofNat 13 b)
      | .fiSplit => .fiSplit
      | .fiCount => .fiCount
      | .scStart => .scStart)
  else none

end Sys2Proof
end

