-- ==== Sys2Proof/Decode.lean ====
section
/-!
DEFINITION. The decoder, total on 32-bit words and rejecting by name (30_encoding.md R90 to R103), and after it the encoder,
from the formats of R92 to R97 and the word patterns of R99.
-/

namespace Sys2Proof

/-- Why a word is illegal (R100). -/
inductive Illegal where
  /-- bits 31:26 are not an opcode of R99 -/
  | reservedOpcode
  /-- a reserved field of the opcode's format is nonzero -/
  | reservedField
  deriving DecidableEq, Repr

/-- `v[hi:lo]` of R11, given by its low bit and its width. -/
def field (w : Word) (lo len : Nat) : BitVec len := w.extractLsb' lo len

/-- `op = w[31:26]` (R91). -/
def opcodeOf (w : Word) : BitVec 6 := field w 26 6

/-- A command of R99 whose reserved bits, if `ok`, are all zero (R100). -/
def legalIf (ok : Bool) (i : Instr) : Except Illegal Instr :=
  if ok then .ok i else .error .reservedField

/-- Decoding is total: a command of R99 with its fields, or illegal (R100, R101). -/
def decode (w : Word) : Except Illegal Instr :=
  match (opcodeOf w).toNat with
  | 0x00 => legalIf (field w 0 26 == 0) .nop
  | 0x01 => legalIf (field w 22 4 == 0 && field w 0 16 == 0) (.rd (field w 16 6))
  | 0x02 => legalIf (field w 23 3 == 0) (.wr (field w 22 1) (field w 16 6) (field w 0 16))
  | 0x08 => legalIf (field w 1 25 == 0) (.pkBit (field w 0 1))
  | 0x09 => legalIf (field w 12 14 == 0) (.pkBits (field w 8 4) (field w 0 8))
  | 0x0A => legalIf (field w 0 26 == 0) .pkFlush
  | 0x0B => legalIf (field w 0 26 == 0) .pkClr
  | 0x10 => legalIf (field w 0 26 == 0) .upBit
  | 0x11 => legalIf (field w 0 26 == 0) .upClr
  | 0x18 => .ok (.fiCfg (field w 13 13) (field w 0 13))
  | 0x19 => .ok (.fiAddr (field w 13 13) (field w 0 13))
  | 0x1A => legalIf (field w 0 26 == 0) .fiSplit
  | 0x1B => legalIf (field w 0 26 == 0) .fiCount
  | 0x20 => legalIf (field w 0 26 == 0) .scStart
  | _ => .error .reservedOpcode

/-- The word of a command, as the word patterns of R99 place its fields. -/
def encode : Instr → Word
  | .nop => 0x00000000#32
  | .rd reg => 0x04000000#32 ||| zext32 reg <<< 16
  | .wr h reg imm => 0x08000000#32 ||| zext32 h <<< 22 ||| zext32 reg <<< 16 ||| zext32 imm
  | .pkBit p => 0x20000000#32 ||| zext32 p
  | .pkBits n d => 0x24000000#32 ||| zext32 n <<< 8 ||| zext32 d
  | .pkFlush => 0x28000000#32
  | .pkClr => 0x2C000000#32
  | .upBit => 0x40000000#32
  | .upClr => 0x44000000#32
  | .fiCfg a b => 0x60000000#32 ||| zext32 a <<< 13 ||| zext32 b
  | .fiAddr a b => 0x64000000#32 ||| zext32 a <<< 13 ||| zext32 b
  | .fiSplit => 0x68000000#32
  | .fiCount => 0x6C000000#32
  | .scStart => 0x80000000#32

/-- R100's table, its `match` column: the fixed bits of a command's words. -/
def Instr.pattern : Instr → Word
  | .nop => 0x00000000#32
  | .rd _ => 0x04000000#32
  | .wr _ _ _ => 0x08000000#32
  | .pkBit _ => 0x20000000#32
  | .pkBits _ _ => 0x24000000#32
  | .pkFlush => 0x28000000#32
  | .pkClr => 0x2C000000#32
  | .upBit => 0x40000000#32
  | .upClr => 0x44000000#32
  | .fiCfg _ _ => 0x60000000#32
  | .fiAddr _ _ => 0x64000000#32
  | .fiSplit => 0x68000000#32
  | .fiCount => 0x6C000000#32
  | .scStart => 0x80000000#32

/-- R100's table, its `mask` column: which bits of a command's words are fixed. -/
def Instr.mask : Instr → Word
  | .nop => 0xFFFFFFFF#32
  | .rd _ => 0xFFC0FFFF#32
  | .wr _ _ _ => 0xFF800000#32
  | .pkBit _ => 0xFFFFFFFE#32
  | .pkBits _ _ => 0xFFFFF000#32
  | .pkFlush => 0xFFFFFFFF#32
  | .pkClr => 0xFFFFFFFF#32
  | .upBit => 0xFFFFFFFF#32
  | .upClr => 0xFFFFFFFF#32
  | .fiCfg _ _ => 0xFC000000#32
  | .fiAddr _ _ => 0xFC000000#32
  | .fiSplit => 0xFFFFFFFF#32
  | .fiCount => 0xFFFFFFFF#32
  | .scStart => 0xFFFFFFFF#32

/-- The command read from the word whose bits are `w`, bit 0 the least significant, `nbits` of them given and the rest 0.  A
command is one 32-bit word presented whole (R90), so there are no bytes to lay out. -/
def decodeTableWord (nbits w : Nat) : Option Instr :=
  (decode (BitVec.ofNat 32 (w % 2 ^ nbits))).toOption

end Sys2Proof
end

