-- ==== Sys2Proof/Machine/State.lean ====
section
/-!
DEFINITION. The state of the core (10_state.md R29 to R40, R53), the streams outside it that a model keeps (20_memory.md R70 to
R72), the environment's own data, and the state right after reset (10_state.md R54).
-/

namespace Sys2Proof.Machine

/-- `SC_ST` (44_scheduler.md R200): six values; 6 and 7 are never reached and are not representable. -/
inductive SchedState where
  | idle
  | waitReady
  | render
  | sleep
  | done
  | fault
  deriving DecidableEq, Repr

/-- The command errors, codes 1 to 7 of 60_exceptions.md R230. -/
inductive CommandError where
  | illegal
  | operand
  | reg
  | empty
  | range
  | busy
  | nocfg
  deriving DecidableEq, Repr

/-- The scheduler faults, codes 8 and 9 of 60_exceptions.md R230. -/
inductive SchedFault where
  | render
  | debtovf
  deriving DecidableEq, Repr

/-- Packer state (R32) and the packer output buffer (R31). -/
structure Packer where
  acc    : Byte
  cnt    : BitVec 3
  bytes  : Word
  outV   : Bool
  outbuf : Byte
  deriving DecidableEq, Repr

/-- Unpacker state (R33).  `uidx` holds 0 to 8 ("4 bits, value 0 .. 8"). -/
structure Unpacker where
  ubyte : Byte
  uidx  : Fin 9
  bytes : Word
  bits  : Word
  deriving DecidableEq, Repr

/-- Frame-indexer state (R34). -/
structure FrameIndexer where
  width  : BitVec 13
  height : BitVec 13
  res    : BitVec 26
  nbytes : Word
  frames : Word
  frm    : Word
  g      : Word
  qf     : Word
  qr     : BitVec 13
  qc     : BitVec 13
  deriving DecidableEq, Repr

/-- Scheduler state (R35). -/
structure Scheduler where
  st       : SchedState
  fcode    : BitVec 4
  interval : Word
  nframes  : Word
  debt     : Word
  fstart   : Word
  sleep    : Word
  fidx     : Word
  deriving DecidableEq, Repr

/-- The response buffer `RSP_V`, `RSP_ERR`, `RSP_DATA` (R29). -/
structure ResponseBuffer where
  v    : Bool
  err  : Bool
  data : Word
  deriving DecidableEq, Repr

/-- A response as the host takes it, `(err, data)` (R25, R281). -/
structure Response where
  err  : Bool
  data : Word
  deriving DecidableEq, Repr

/-- The observation of the current run (70_reset_and_hazards.md R281): the number of the coming cycle, counted from the first
cycle after the reset edge; the responses taken; the bytes appended to `SINK`; the number of bytes consumed from `SOURCE`; each
cycle with `rd_req = 1`, with its `rd_frame`; each gate cycle, with its frame.  The core reads none of it (log 14). -/
structure RunLog where
  cycle     : Nat
  responses : List Response
  appended  : List Byte
  consumed  : Nat
  renders   : List (Nat × Word)
  gates     : List (Nat × Word)
  deriving DecidableEq, Repr

/-- The log of a run that has not begun. -/
def RunLog.start : RunLog :=
  { cycle := 0, responses := [], appended := [], consumed := 0, renders := [], gates := [] }

/-- Everything the spec gives the machine, at the start of a clock cycle.

`status` holds `STATUS[2:0]` (R36) and `irqEn` holds `IRQ_EN[2:0]` (R38); their bits 31:3 read 0.  `sink` and `source` are the
byte streams of R71 and R72.  `cmds` is what the host still presents, its head on `cmd_word`; `schedule` is the inputs of the
coming cycles, the current one first; `clock` is the model's own counter, to which `Config.freeInputs` is applied in a cycle
with no scheduled inputs (logs 1 to 4). -/
structure State where
  pk       : Packer
  up       : Unpacker
  fi       : FrameIndexer
  sc       : Scheduler
  status   : BitVec 3
  irqEn    : BitVec 3
  errCode  : BitVec 4
  errCmd   : Word
  now      : Word
  rsp      : ResponseBuffer
  sink     : List Byte
  source   : List Byte
  cmds     : List Word
  schedule : List Inputs
  clock    : Nat
  log      : RunLog
  deriving DecidableEq, Repr

/-- The reasons the machine stops.  There are none: an error of the core transfers no control and stops nothing (R237), and a
hold or a wait that is never lifted is a run of normal cycles (R270 to R274).  Nothing raises a fault; safe. -/
inductive Fault where
  deriving DecidableEq, Repr

/-- The reasons an instruction has no meaning. -/
inductive Refusal where
  /-- an instruction with no meaning yet; raised by no arm of `exec` now; safe -/
  | notModelled (mnemonic : String)
  deriving DecidableEq, Repr

/-- R54's packer values. -/
def Packer.reset : Packer := { acc := 0, cnt := 0, bytes := 0, outV := false, outbuf := 0 }

/-- R54's unpacker values: `UIDX` is 8. -/
def Unpacker.reset : Unpacker := { ubyte := 0, uidx := 8, bytes := 0, bits := 0 }

/-- R54's frame-indexer values. -/
def FrameIndexer.reset : FrameIndexer :=
  { width := 0, height := 0, res := 0, nbytes := 0, frames := 0, frm := 0, g := 0, qf := 0, qr := 0, qc := 0 }

/-- R54's scheduler values. -/
def Scheduler.reset : Scheduler :=
  { st := .idle, fcode := 0, interval := 0, nframes := 0, debt := 0, fstart := 0, sleep := 0, fidx := 0 }

/-- R54's response buffer values. -/
def ResponseBuffer.reset : ResponseBuffer := { v := false, err := false, data := 0 }

/-- The machine right after reset: R54 for every register of the core; for the streams and the environment's data, which the
spec gives no start value, nothing listed (DESIGN CHOICE, log 5). -/
def State.reset : State :=
  { pk := Packer.reset, up := Unpacker.reset, fi := FrameIndexer.reset, sc := Scheduler.reset,
    status := 0, irqEn := 0, errCode := 0, errCmd := 0, now := 0, rsp := ResponseBuffer.reset,
    sink := [], source := [], cmds := [], schedule := [], clock := 0, log := RunLog.start }

end Sys2Proof.Machine
end

