-- ==== Sys2Proof/Machine/Flags.lean ====
section
/-!
DEFINITION. The flags: `STATUS` and its set and clear (10_state.md R36, 70_reset_and_hazards.md R265), the error and fault codes
(60_exceptions.md R230), the scheduler-state codes (44_scheduler.md R200), and the interrupt level (10_state.md R30).
-/

namespace Sys2Proof.Machine

/-- `STATUS` bit 0, `CMD_ERR` (R36). -/
def statusCmdErr : BitVec 3 := 0b001#3

/-- `STATUS` bit 1, `SC_DONE` (R36). -/
def statusScDone : BitVec 3 := 0b010#3

/-- `STATUS` bit 2, `SC_FAULT` (R36). -/
def statusScFault : BitVec 3 := 0b100#3

/-- `STATUS.CMD_ERR = 1`. -/
def State.cmdErr (s : State) : Bool := s.status.getLsbD 0

/-- "set STATUS.X": the sticky bits of `mask` become 1 (R36, R265). -/
def setStatus (status mask : BitVec 3) : BitVec 3 := status ||| mask

/-- Write-one-to-clear: the bits of `mask` become 0 (R123). -/
def clearStatus (status mask : BitVec 3) : BitVec 3 := status &&& ~~~mask

/-- `irq` but for `rst`: some flag of `STATUS` is 1 with its enable 1 (R30, R240). -/
def irqLevel (status enable : BitVec 3) : Bool := (status &&& enable) != 0

/-- The codes of the command errors (R230). -/
def CommandError.code : CommandError → BitVec 4
  | .illegal => 1
  | .operand => 2
  | .reg => 3
  | .empty => 4
  | .range => 5
  | .busy => 6
  | .nocfg => 7

/-- The codes of the scheduler faults (R230). -/
def SchedFault.code : SchedFault → BitVec 4
  | .render => 8
  | .debtovf => 9

/-- The value of `SC_ST` (R200). -/
def SchedState.code : SchedState → BitVec 3
  | .idle => 0
  | .waitReady => 1
  | .render => 2
  | .sleep => 3
  | .done => 4
  | .fault => 5

/-- "The scheduler is *running* when `SC_ST` is in {WAIT_READY, RENDER, SLEEP}" (R200). -/
def SchedState.running : SchedState → Bool
  | .waitReady | .render | .sleep => true
  | .idle | .done | .fault => false

end Sys2Proof.Machine
end

