-- ==== Sys2Proof/Machine/Operands.lean ====
section
/-!
DEFINITION. The register operand: the register map of 10_state.md R50 with its access kinds (R51, R52), the value `RD` reads, and
the 16-bit half `WR` writes (30_encoding.md R98).
-/

namespace Sys2Proof.Machine

/-- The allocated registers of R50, in the table's order. -/
inductive RegName where
  | id | status | irqEn | errCode | errCmd | now
  | pkState | pkBytes
  | upState | upBytes | upBits
  | fiWidth | fiHeight | fiRes | fiNbytes | fiFrames | fiFrm | fiG | fiQf | fiQr | fiQc | fiBaddr | fiBsel
  | scState | scInterval | scNframes | scDebt | scFstart | scSleep | scFidx
  deriving DecidableEq, Repr

/-- The access kinds of R52; a busy-guarded register is an RW one guarded by `RegName.busyGuarded`. -/
inductive Access where
  | ro
  | rw
  | rw1c
  | derived
  deriving DecidableEq, Repr

/-- R50, column `idx`. -/
def RegName.index : RegName → BitVec 6
  | .id => 0x00
  | .status => 0x01
  | .irqEn => 0x02
  | .errCode => 0x03
  | .errCmd => 0x04
  | .now => 0x05
  | .pkState => 0x08
  | .pkBytes => 0x09
  | .upState => 0x0C
  | .upBytes => 0x0D
  | .upBits => 0x0E
  | .fiWidth => 0x10
  | .fiHeight => 0x11
  | .fiRes => 0x12
  | .fiNbytes => 0x13
  | .fiFrames => 0x14
  | .fiFrm => 0x15
  | .fiG => 0x16
  | .fiQf => 0x17
  | .fiQr => 0x18
  | .fiQc => 0x19
  | .fiBaddr => 0x1A
  | .fiBsel => 0x1B
  | .scState => 0x20
  | .scInterval => 0x21
  | .scNframes => 0x22
  | .scDebt => 0x23
  | .scFstart => 0x24
  | .scSleep => 0x25
  | .scFidx => 0x26

/-- The register with an index; none where R51 says the index is unallocated. -/
def RegName.ofIndex (reg : BitVec 6) : Option RegName :=
  match reg.toNat with
  | 0x00 => some .id
  | 0x01 => some .status
  | 0x02 => some .irqEn
  | 0x03 => some .errCode
  | 0x04 => some .errCmd
  | 0x05 => some .now
  | 0x08 => some .pkState
  | 0x09 => some .pkBytes
  | 0x0C => some .upState
  | 0x0D => some .upBytes
  | 0x0E => some .upBits
  | 0x10 => some .fiWidth
  | 0x11 => some .fiHeight
  | 0x12 => some .fiRes
  | 0x13 => some .fiNbytes
  | 0x14 => some .fiFrames
  | 0x15 => some .fiFrm
  | 0x16 => some .fiG
  | 0x17 => some .fiQf
  | 0x18 => some .fiQr
  | 0x19 => some .fiQc
  | 0x1A => some .fiBaddr
  | 0x1B => some .fiBsel
  | 0x20 => some .scState
  | 0x21 => some .scInterval
  | 0x22 => some .scNframes
  | 0x23 => some .scDebt
  | 0x24 => some .scFstart
  | 0x25 => some .scSleep
  | 0x26 => some .scFidx
  | _ => none

/-- R50, column `access`. -/
def RegName.access : RegName → Access
  | .status => .rw1c
  | .irqEn | .fiNbytes | .fiFrm | .fiG | .scInterval | .scNframes => .rw
  | .fiBaddr | .fiBsel => .derived
  | .id | .errCode | .errCmd | .now | .pkState | .pkBytes | .upState | .upBytes | .upBits
  | .fiWidth | .fiHeight | .fiRes | .fiFrames | .fiQf | .fiQr | .fiQc
  | .scState | .scDebt | .scFstart | .scSleep | .scFidx => .ro

/-- The registers R50 calls busy-guarded. -/
def RegName.busyGuarded (r : RegName) : Bool := r == .scInterval || r == .scNframes

/-- `FI_BADDR = FI_G >> 3`, the byte of the stream that holds pixel `FI_G` (R50, R185). -/
def fiBaddr (g : Word) : Word := g >>> 3

/-- `FI_BSEL = 7 - (FI_G mod 8)`, the bit of that byte (R50, R185). -/
def fiBsel (g : Word) : Word := 7 - zext32 (g.extractLsb' 0 3)

/-- The value of a register, its fields at their bit positions and all other bits 0 (R50, R121). -/
def State.readReg (s : State) : RegName → Word
  | .id => Config.idValue
  | .status => zext32 s.status
  | .irqEn => zext32 s.irqEn
  | .errCode => zext32 s.errCode
  | .errCmd => s.errCmd
  | .now => s.now
  | .pkState => zext32 s.pk.outbuf <<< 24 ||| zext32 (bit s.pk.outV) <<< 16 ||| zext32 s.pk.cnt <<< 8 ||| zext32 s.pk.acc
  | .pkBytes => s.pk.bytes
  | .upState => BitVec.ofNat 32 s.up.uidx.val <<< 8 ||| zext32 s.up.ubyte
  | .upBytes => s.up.bytes
  | .upBits => s.up.bits
  | .fiWidth => zext32 s.fi.width
  | .fiHeight => zext32 s.fi.height
  | .fiRes => zext32 s.fi.res
  | .fiNbytes => s.fi.nbytes
  | .fiFrames => s.fi.frames
  | .fiFrm => s.fi.frm
  | .fiG => s.fi.g
  | .fiQf => s.fi.qf
  | .fiQr => zext32 s.fi.qr
  | .fiQc => zext32 s.fi.qc
  | .fiBaddr => fiBaddr s.fi.g
  | .fiBsel => fiBsel s.fi.g
  | .scState => zext32 s.sc.fcode <<< 4 ||| zext32 s.sc.st.code
  | .scInterval => s.sc.interval
  | .scNframes => s.sc.nframes
  | .scDebt => s.sc.debt
  | .scFstart => s.sc.fstart
  | .scSleep => s.sc.sleep
  | .scFidx => s.sc.fidx

/-- `WR`'s placement of `imm` into bits 15:0 (`h = 0`) or bits 31:16 (`h = 1`) of a register (R98, R122). -/
def setHalf (old : Word) (h : BitVec 1) (imm : BitVec 16) : Word :=
  if h = 0 then zext32 (old.extractLsb' 16 16) <<< 16 ||| zext32 imm
  else zext32 imm <<< 16 ||| zext32 (old.extractLsb' 0 16)

end Sys2Proof.Machine
end

