-- ==== Sys2Proof/Machine/Ops.lean ====
section
/-!
DEFINITION. The named operations every command is built from: the inputs of the cycle and the holds (10_state.md R24,
70_reset_and_hazards.md R270), the response (10_state.md R29), raising an error (60_exceptions.md R232, R233, R237) and recovering from one
(40_register_access.md R123, 60_exceptions.md R238), the command frame (60_exceptions.md R233), entering the scheduler's `FAULT`
(60_exceptions.md R235), and the reset edge (70_reset_and_hazards.md R260).
-/

namespace Sys2Proof.Machine

/-- What a command, or a cycle, answers. -/
abbrev Result := Host.Outcome State Fault Refusal

/-- A next state changed by what surrounds it; a stop stays that stop. -/
def mapNext (f : State → State) : Result → Result
  | .next s => .next (f s)
  | .fault r => .fault r
  | .refused r => .refused r

/-- The inputs of the current cycle: the first scheduled ones, or the environment's free choice (logs 1, 2). -/
def State.inputs (s : State) : Inputs :=
  match s.schedule with
  | [] => Config.freeInputs s.clock
  | i :: _ => i

/-- `bi_valid`: the source is ready and has a byte (R72). -/
def State.biValid (s : State) : Bool := s.inputs.biValid && !s.source.isEmpty

/-- The four opcodes a full output buffer holds: 0x08 to 0x0B (R24). -/
def isPackerOpcode (op : BitVec 6) : Bool := op == 0x08 || op == 0x09 || op == 0x0A || op == 0x0B

/-- R24's hold of a presented word but for reset; it depends on the word's opcode alone. -/
def State.held (s : State) (op : BitVec 6) : Bool :=
  s.rsp.v || (isPackerOpcode op && s.pk.outV) || (op == 0x10 && s.up.uidx == 8 && !s.biValid)

/-- The packer's registers replaced, and nothing else (R32). -/
def State.withPk (s : State) (k : Packer) : State := { s with pk := k }

/-- The unpacker's registers replaced, and nothing else (R33). -/
def State.withUp (s : State) (u : Unpacker) : State := { s with up := u }

/-- The frame indexer's registers replaced, and nothing else (R34). -/
def State.withFi (s : State) (f : FrameIndexer) : State := { s with fi := f }

/-- The scheduler's registers replaced, and nothing else (R35). -/
def State.withSc (s : State) (c : Scheduler) : State := { s with sc := c }

/-- `SourcePop()`: what the source still holds, `rest` being what follows the byte consumed (R33, R72). -/
def State.withSource (s : State) (rest : List Byte) : State := { s with source := rest }

/-- `Respond(err, data)` (R29). -/
def State.respond (s : State) (err : Bool) (data : Word) : State :=
  { s with rsp := { v := true, err := err, data := data } }

/-- The error record: the first error since `CMD_ERR` was last 0 is kept, and `CMD_ERR` is set (R232). -/
def State.recordError (s : State) (w : Word) (e : CommandError) : State :=
  { s with
    errCode := if s.cmdErr then s.errCode else e.code
    errCmd := if s.cmdErr then s.errCmd else w
    status := setStatus s.status statusCmdErr }

/-- RAISING AN ERROR, the one operation every command error goes through: `w` is the offending word.  No other write takes
effect (R233); control is not transferred and nothing else is saved (R237). -/
def State.raise (s : State) (w : Word) (e : CommandError) : State :=
  (s.recordError w e).respond true (zext32 e.code)

/-- RECOVERY from errors and scheduler events: the W1C write of `STATUS[2:0]`.  Clearing `CMD_ERR` clears the record (R123,
R238); the core has no return-from-error command. -/
def State.recover (s : State) (mask : BitVec 3) : State :=
  { s with
    status := clearStatus s.status mask
    errCode := if mask.getLsbD 0 then 0 else s.errCode
    errCmd := if mask.getLsbD 0 then 0 else s.errCmd }

/-- The command frame (R233).  A held command is not accepted and nothing changes (R23, R270); an accepted one performs the
writes of its rule and one response, or raises its error and writes nothing else. -/
def State.runCommand (s : State) (i : Instr) (rule : Except CommandError (State × Word)) : Result :=
  if s.held (opcodeOf (encode i)) then .next s
  else match rule with
    | .ok (t, data) => .next (t.respond false data)
    | .error e => .next (s.raise (encode i) e)

/-- Entering `FAULT`: the state and the code; every other scheduler register keeps its value (R206, R209, R235). -/
def Scheduler.enterFault (sc : Scheduler) (f : SchedFault) : Scheduler :=
  { sc with st := .fault, fcode := f.code }

/-- An edge with `rst = 1`: every register of the core takes its reset value, nothing is accepted, taken, drained or consumed,
and the streams and what the host still presents are not changed (R260).  The cycle's inputs are used up, and the log of a
new run begins (R281). -/
def State.resetEdge (s : State) : State :=
  { State.reset with
    sink := s.sink, source := s.source, cmds := s.cmds
    schedule := s.schedule.tail, clock := s.clock + 1 }

end Sys2Proof.Machine
end

