-- ==== Sys2Proof/Machine/Ports.lean ====
section
/-!
DEFINITION. The ports of the core as functions of the state and of the cycle's inputs (10_state.md R22 to R30), and the holds by
name (70_reset_and_hazards.md R270).
-/

namespace Sys2Proof.Machine

/-- `cmd_valid` with its `cmd_word`: the host presents the next of its commands (R22). -/
def State.presented (s : State) : Option Word := if s.inputs.cmdValid then s.cmds.head? else none

/-- `cmd_ready`, for a word on `cmd_word` (R24). -/
def State.cmdReady (s : State) (w : Word) : Bool := !s.inputs.rst && !s.held (opcodeOf w)

/-- The word accepted at the coming edge: presented, with `cmd_ready = 1` (R23). -/
def State.accepted (s : State) : Option Word := s.presented.filter s.cmdReady

/-- `rsp_valid` (R25). -/
def State.rspValid (s : State) : Bool := s.rsp.v && !s.inputs.rst

/-- `rsp_err` and `rsp_data`; they carry meaning only while `rsp_valid = 1` (R25, log 15). -/
def State.rspPort (s : State) : Response := { err := s.rsp.err, data := s.rsp.data }

/-- The presented response is taken at the coming edge (R25). -/
def State.rspTaken (s : State) : Bool := s.rspValid && s.inputs.rspReady

/-- `bo_valid` (R26). -/
def State.boValid (s : State) : Bool := s.pk.outV && !s.inputs.rst

/-- `bo_data`; it carries meaning only while `bo_valid = 1` (R26, log 15). -/
def State.boData (s : State) : Byte := s.pk.outbuf

/-- The presented byte is taken by the sink at the coming edge (R26). -/
def State.boTaken (s : State) : Bool := s.boValid && s.inputs.boReady

/-- `bi_data`: the head of the source; none where the source has no byte (R72). -/
def State.biData (s : State) : Option Byte := s.source.head?

/-- `bi_ready`: the word accepted at the coming edge is `UP_BIT` with all reserved bits zero, and `UIDX = 8` (R27). -/
def State.biReady (s : State) : Bool := s.accepted == some 0x40000000#32 && s.up.uidx == 8

/-- `rd_req` (R28). -/
def State.rdReq (s : State) : Bool := s.sc.st == .render && !s.inputs.rst

/-- `rd_frame` (R28). -/
def State.rdFrame (s : State) : Word := s.sc.fidx

/-- `irq` (R30). -/
def State.irq (s : State) : Bool := irqLevel s.status s.irqEn && !s.inputs.rst

/-- The holds of R270. -/
inductive Hold where
  | response
  | packer
  | source
  | reset
  deriving DecidableEq, Repr

/-- The holds that keep a word on `cmd_word` from being accepted in this cycle (R270). -/
def State.holds (s : State) (w : Word) : List Hold :=
  (if s.rsp.v then [.response] else []) ++
  (if isPackerOpcode (opcodeOf w) && s.pk.outV then [.packer] else []) ++
  (if opcodeOf w == 0x10 && s.up.uidx == 8 && !s.biValid then [.source] else []) ++
  (if s.inputs.rst then [.reset] else [])

end Sys2Proof.Machine
end

