-- ==== Sys2Proof/Machine/Scheduler.lean ====
section
/-!
DEFINITION. The playback scheduler: `SC_START` (44_scheduler.md R202) and the scheduler step of a cycle (R203 to R212, R219).
-/

namespace Sys2Proof.Machine

/-- `SC_START`'s writes (R202); `SC_FSTART`, `SC_INTERVAL` and `SC_NFRAMES` keep their values. -/
def Scheduler.start (sc : Scheduler) : Scheduler :=
  { sc with debt := 0, fidx := 0, sleep := 0, fcode := 0, st := .waitReady }

/-- `SC_START` (R202). -/
def execScStart (s : State) : Result :=
  s.runCommand .scStart (
    if s.sc.st.running then .error .busy
    else if s.sc.interval = 0 ∨ s.sc.nframes = 0 then .error .operand
    else if s.fi.frames = 0 then .error .empty
    else if s.fi.frames.toNat < s.sc.nframes.toNat then .error .range
    else .ok (s.withSc s.sc.start, 0))

/-- What the scheduler step of a cycle writes: the scheduler's registers and the `STATUS` bits it sets (R265, step 5). -/
structure SchedStep where
  sc   : Scheduler
  set5 : BitVec 3
  deriving DecidableEq, Repr

/-- `elapsed = raw + s32(SC_DEBT)` with `raw = (NOW - SC_FSTART) mod 2^32`, an exact integer (R207). -/
def Scheduler.elapsed (sc : Scheduler) (now : Word) : Int :=
  ((now - sc.fstart).toNat : Int) + sc.debt.toInt

/-- The branch of `rd_done = 1` (R203 steps 3 to 5, R208, R209). -/
def Scheduler.rendered (sc : Scheduler) (now : Word) : SchedStep :=
  let elapsed := sc.elapsed now
  if (sc.interval.toNat : Int) < elapsed then
    { sc := { sc with debt := 0, sleep := 0, st := .sleep }, set5 := 0 }
  else
    let nd := elapsed - (sc.interval.toNat : Int)
    if nd < -2 ^ 31 then { sc := sc.enterFault .debtovf, set5 := statusScFault }
    else { sc := { sc with debt := BitVec.ofInt 32 nd, sleep := BitVec.ofInt 32 (-nd), st := .sleep }, set5 := 0 }

/-- The branch of `SC_SLEEP = 0` in `SLEEP`: the next frame or the end (R212).  `SC_FIDX + 1 = SC_NFRAMES` compares exact
integers (R12, R203).  DESIGN CHOICE (log 8): for `SC_FIDX = 2^32 - 1`, which R55 item 6 rules out in `SLEEP`, the exact
`SC_FIDX + 1` does not fit its register, which takes the low bits, 0. -/
def Scheduler.sleepOver (sc : Scheduler) : SchedStep :=
  if sc.fidx.toNat + 1 = sc.nframes.toNat then
    { sc := { sc with fidx := sc.fidx + 1, st := .done }, set5 := statusScDone }
  else { sc := { sc with fidx := sc.fidx + 1, st := .waitReady }, set5 := 0 }

/-- `sched_step()` (R203). -/
def Scheduler.step (sc : Scheduler) (now : Word) (i : Inputs) : SchedStep :=
  match sc.st with
  | .idle | .done | .fault => { sc := sc, set5 := 0 }
  | .waitReady =>
    if i.frameReady then { sc := { sc with fstart := now, st := .render }, set5 := 0 }
    else { sc := sc, set5 := 0 }
  | .render =>
    if i.rdErr then { sc := sc.enterFault .render, set5 := statusScFault }
    else if i.rdDone then sc.rendered now
    else { sc := sc, set5 := 0 }
  | .sleep =>
    if sc.sleep = 0 then sc.sleepOver
    else if i.tick then { sc := { sc with sleep := sc.sleep - 1 }, set5 := 0 }
    else { sc := sc, set5 := 0 }

end Sys2Proof.Machine
end

