-- ==== Sys2Proof/Machine/Cycle.lean ====
section
/-!
DEFINITION. What a clock cycle with `rst = 0` does around the accepted command (70_reset_and_hazards.md R264, R265), the accepted
illegal word (60_exceptions.md R233), and how a command word is put on the command port.
-/

namespace Sys2Proof.Machine

/-- An accepted illegal word: `ILLEGAL` and no other effect (R101, R233). -/
def runIllegal (w : Word) (s : State) : State := s.raise w .illegal

/-- The scheduler step of the cycle, on the start-of-cycle state (R264 step 5). -/
def State.schedStep (s : State) : SchedStep := s.sc.step s.now s.inputs

/-- The scheduler registers at the edge: step 5's write set of R265 where the scheduler runs, the command's otherwise. -/
def State.mergeSched (s t : State) : Scheduler :=
  if s.sc.st.running then
    { s.schedStep.sc with interval := t.sc.interval, nframes := t.sc.nframes }
  else t.sc

/-- The run's observation after this cycle (R281). -/
def State.nextLog (s : State) : RunLog :=
  { cycle := s.log.cycle + 1
    responses := if s.rspTaken then s.log.responses ++ [s.rspPort] else s.log.responses
    appended := if s.boTaken then s.log.appended ++ [s.boData] else s.log.appended
    consumed := if s.biReady then s.log.consumed + 1 else s.log.consumed
    renders := if s.rdReq then s.log.renders ++ [(s.log.cycle, s.rdFrame)] else s.log.renders
    gates :=
      if s.sc.st = .waitReady ∧ s.inputs.frameReady then s.log.gates ++ [(s.log.cycle, s.sc.fidx)] else s.log.gates }

/-- The edge that closes a cycle with `rst = 0` (R264): `s` is the state at the start of the cycle and `t` is `s` with the writes
of the accepted command, `s` itself where no command is accepted.  Every other step of the cycle reads `s`. -/
def State.closeCycle (s t : State) : State :=
  { t with
    now := s.now + zext32 (bit s.inputs.tick)
    rsp := { t.rsp with v := if s.rspTaken then false else t.rsp.v }
    pk := { t.pk with outV := if s.boTaken then false else t.pk.outV }
    sink := if s.boTaken then s.sink ++ [s.boData] else s.sink
    sc := s.mergeSched t
    status := setStatus t.status s.schedStep.set5
    cmds := if s.accepted.isSome then s.cmds.tail else s.cmds
    schedule := s.schedule.tail
    clock := s.clock + 1
    log := s.nextLog }

/-- The cycle's inputs with which a presented command is accepted: `rst = 0`, `cmd_valid = 1`, and a byte presented if the source
has one; the rest as scheduled, or low where nothing is. -/
def State.presentInputs (s : State) : Inputs :=
  { s.schedule.headD Inputs.idle with rst := false, cmdValid := true, biValid := true }

/-- The state in which the host presents `w` and no hold keeps it: the load of a command from outside (R20, R24, log 6). -/
def State.present (s : State) (w : Word) : State :=
  { s with
    cmds := w :: s.cmds
    schedule := s.presentInputs :: s.schedule.tail
    rsp := { s.rsp with v := false }
    pk := { s.pk with outV := s.pk.outV && !isPackerOpcode (opcodeOf w) }
    source := if opcodeOf w == 0x10 && s.up.uidx == 8 && s.source.isEmpty then [0] else s.source }

end Sys2Proof.Machine
end

