-- ==== Sys2Proof/Machine/FrameIndexer.lean ====
section
/-!
DEFINITION. The frame-indexer commands (43_frame_indexer.md R181 to R184).
-/

namespace Sys2Proof.Machine

/-- `a div b`; for `b = 0` R12 gives no value, and the result is free (log 13). -/
def natDiv (a b : Nat) : Nat := if b = 0 then Config.divByZero a else a / b

/-- `a mod b`; for `b = 0` R12 gives no value, and the result is free (log 13). -/
def natMod (a b : Nat) : Nat := if b = 0 then Config.modByZero a else a % b

/-- `FI_CFG`'s writes (R181). -/
def FrameIndexer.configure (f : FrameIndexer) (a b : BitVec 13) : FrameIndexer :=
  { f with width := a, height := b, res := BitVec.ofNat 26 (a.toNat * b.toNat), frames := 0 }

/-- `FI_CFG W, H` (R181). -/
def execFiCfg (a b : BitVec 13) (s : State) : Result :=
  s.runCommand (.fiCfg a b) (
    if a = 0 ∨ b = 0 then .error .operand
    else .ok (s.withFi (s.fi.configure a b), BitVec.ofNat 32 (a.toNat * b.toNat)))

/-- `g = FI_FRM·FI_RES + r·FI_WIDTH + c`, an exact number (R180, R182). -/
def FrameIndexer.address (f : FrameIndexer) (a b : BitVec 13) : Nat :=
  f.frm.toNat * f.res.toNat + a.toNat * f.width.toNat + b.toNat

/-- `FI_ADDR r, c` (R182). -/
def execFiAddr (a b : BitVec 13) (s : State) : Result :=
  s.runCommand (.fiAddr a b) (
    if s.fi.res = 0 then .error .nocfg
    else if s.fi.height.toNat ≤ a.toNat ∨ s.fi.width.toNat ≤ b.toNat then .error .range
    else if 2 ^ 32 ≤ s.fi.address a b then .error .range
    else
      .ok (s.withFi { s.fi with g := BitVec.ofNat 32 (s.fi.address a b) }, BitVec.ofNat 32 (s.fi.address a b)))

/-- The results of `FI_SPLIT`: frame, row and column of `FI_G` (R180, R183).  DESIGN CHOICE (log 8): where `FI_RES` is not
`FI_WIDTH` times `FI_HEIGHT`, which R55 item 3 rules out, a number too wide for its register leaves its low bits there. -/
def FrameIndexer.split (f : FrameIndexer) : FrameIndexer :=
  let o := natMod f.g.toNat f.res.toNat
  { f with
    qf := BitVec.ofNat 32 (natDiv f.g.toNat f.res.toNat)
    qr := BitVec.ofNat 13 (natDiv o f.width.toNat)
    qc := BitVec.ofNat 13 (natMod o f.width.toNat) }

/-- `FI_SPLIT` (R183). -/
def execFiSplit (s : State) : Result :=
  s.runCommand .fiSplit (
    if s.fi.res = 0 then .error .nocfg
    else .ok (s.withFi s.fi.split, s.fi.split.qf))

/-- `fr = (8·FI_NBYTES) div FI_RES`, an exact number (R184). -/
def FrameIndexer.fullFrames (f : FrameIndexer) : Nat := natDiv (8 * f.nbytes.toNat) f.res.toNat

/-- `FI_COUNT` (R184). -/
def execFiCount (s : State) : Result :=
  s.runCommand .fiCount (
    if s.fi.res = 0 then .error .nocfg
    else if s.fi.fullFrames = 0 then .error .empty
    else if 2 ^ 32 ≤ s.fi.fullFrames then .error .range
    else
      .ok (s.withFi { s.fi with frames := BitVec.ofNat 32 s.fi.fullFrames }, BitVec.ofNat 32 s.fi.fullFrames))

end Sys2Proof.Machine
end

