-- ==== Sys2Proof/Machine/Packer.lean ====
section
/-!
DEFINITION. The bit-packer commands (41_packer.md R140 to R144).
-/

namespace Sys2Proof.Machine

/-- `SinkPush(b)` (R31) and the count of emitted bytes (R32). -/
def Packer.emit (k : Packer) (b : Byte) : Packer :=
  { k with outbuf := b, outV := true, bytes := k.bytes + 1 }

/-- The bit-step `step(p)` (R140). -/
def Packer.bitStep (k : Packer) (p : BitVec 1) : Packer :=
  let a : Byte := (k.acc <<< 1) + p.setWidth 8
  if k.cnt = 7 then { k.emit a with acc := 0, cnt := 0 }
  else { k with acc := a, cnt := k.cnt + 1 }

/-- `PK_BITS`' step by `n` pixels, `d[n-1]` first (R142); `t` and `v` are exact numbers, as there.  DESIGN CHOICE (log 8): where
`ACC` is not below `2^CNT`, which R55 item 1 rules out, a number too wide for its register leaves its low bits there. -/
def Packer.bitsStep (k : Packer) (n : BitVec 4) (d : BitVec 8) : Packer :=
  let t := k.cnt.toNat + n.toNat
  let v := (k.acc.toNat <<< n.toNat) + d.toNat % 2 ^ n.toNat
  if 8 ≤ t then
    { k.emit (BitVec.ofNat 8 (v >>> (t - 8))) with
      acc := BitVec.ofNat 8 (v % 2 ^ (t - 8)), cnt := BitVec.ofNat 3 (t - 8) }
  else { k with acc := BitVec.ofNat 8 v, cnt := BitVec.ofNat 3 t }

/-- `PK_FLUSH`'s step: the partial byte, its vacant low-order bits filled with zero (R143). -/
def Packer.flush (k : Packer) : Packer :=
  if k.cnt = 0 then k
  else { k.emit (k.acc <<< (8 - k.cnt.toNat)) with acc := 0, cnt := 0 }

/-- `PK_CLR`'s step (R144). -/
def Packer.clear (k : Packer) : Packer := { k with acc := 0, cnt := 0, bytes := 0 }

/-- `PK_BIT p` (R141). -/
def execPkBit (p : BitVec 1) (s : State) : Result :=
  s.runCommand (.pkBit p) (.ok (s.withPk (s.pk.bitStep p), 0))

/-- `PK_BITS n, d` (R142). -/
def execPkBits (n : BitVec 4) (d : BitVec 8) (s : State) : Result :=
  s.runCommand (.pkBits n d) (
    if n.toNat = 0 ∨ 8 < n.toNat then .error .operand
    else .ok (s.withPk (s.pk.bitsStep n d), 0))

/-- `PK_FLUSH` (R143). -/
def execPkFlush (s : State) : Result :=
  s.runCommand .pkFlush (.ok (s.withPk s.pk.flush, 0))

/-- `PK_CLR` (R144). -/
def execPkClr (s : State) : Result :=
  s.runCommand .pkClr (.ok (s.withPk s.pk.clear, 0))

end Sys2Proof.Machine
end

