-- ==== Sys2Proof/Machine/System.lean ====
section
/-!
DEFINITION. The system commands `NOP`, `RD`, `WR` (40_register_access.md R120 to R127).
-/

namespace Sys2Proof.Machine

/-- `NOP` (R120): do nothing and respond. -/
def execNop (s : State) : Result := s.runCommand .nop (.ok (s, 0))

/-- `RD reg` (R121): respond the register's value at the start of the cycle. -/
def execRd (reg : BitVec 6) (s : State) : Result :=
  s.runCommand (.rd reg) (match RegName.ofIndex reg with
    | none => .error .reg
    | some r => .ok (s, s.readReg r))

/-- `WR` of `STATUS` (R123): write-one-to-clear in the low half, nothing in the high half. -/
def State.writeStatus (s : State) (h : BitVec 1) (imm : BitVec 16) : State :=
  if h = 0 then s.recover (imm.extractLsb' 0 3) else s

/-- `WR` of `IRQ_EN` (R124). -/
def State.writeIrqEn (s : State) (h : BitVec 1) (imm : BitVec 16) : State :=
  if h = 0 then { s with irqEn := imm.extractLsb' 0 3 } else s

/-- `WR` of `FI_NBYTES` (R125): either half makes the frame count 0. -/
def State.writeNbytes (s : State) (h : BitVec 1) (imm : BitVec 16) : State :=
  s.withFi { s.fi with nbytes := setHalf s.fi.nbytes h imm, frames := 0 }

/-- `WR` of `SC_INTERVAL` (R126). -/
def State.writeInterval (s : State) (h : BitVec 1) (imm : BitVec 16) : State :=
  s.withSc { s.sc with interval := setHalf s.sc.interval h imm }

/-- `WR` of `SC_NFRAMES` (R126). -/
def State.writeNframes (s : State) (h : BitVec 1) (imm : BitVec 16) : State :=
  s.withSc { s.sc with nframes := setHalf s.sc.nframes h imm }

/-- `WR` of `FI_FRM` (R127). -/
def State.writeFrm (s : State) (h : BitVec 1) (imm : BitVec 16) : State :=
  s.withFi { s.fi with frm := setHalf s.fi.frm h imm }

/-- `WR` of `FI_G` (R127). -/
def State.writeG (s : State) (h : BitVec 1) (imm : BitVec 16) : State :=
  s.withFi { s.fi with g := setHalf s.fi.g h imm }

/-- The write of R122 by register: the one written, or `REG` for a read-only or derived one (R52). -/
def State.writeReg (s : State) (h : BitVec 1) (imm : BitVec 16) : RegName → Except CommandError State
  | .status => .ok (s.writeStatus h imm)
  | .irqEn => .ok (s.writeIrqEn h imm)
  | .fiNbytes => .ok (s.writeNbytes h imm)
  | .scInterval => .ok (s.writeInterval h imm)
  | .scNframes => .ok (s.writeNframes h imm)
  | .fiFrm => .ok (s.writeFrm h imm)
  | .fiG => .ok (s.writeG h imm)
  | .id | .errCode | .errCmd | .now | .pkState | .pkBytes | .upState | .upBytes | .upBits
  | .fiWidth | .fiHeight | .fiRes | .fiFrames | .fiQf | .fiQr | .fiQc | .fiBaddr | .fiBsel
  | .scState | .scDebt | .scFstart | .scSleep | .scFidx => .error .reg

/-- `WR h, reg, imm` (R122): the checks in the order of its pseudocode, then the write of R123 to R127. -/
def execWr (h : BitVec 1) (reg : BitVec 6) (imm : BitVec 16) (s : State) : Result :=
  s.runCommand (.wr h reg imm) (match RegName.ofIndex reg with
    | none => .error .reg
    | some r =>
      if r.access = .ro ∨ r.access = .derived then .error .reg
      else if r.busyGuarded ∧ s.sc.st.running then .error .busy
      else match s.writeReg h imm r with
        | .ok t => .ok (t, 0)
        | .error e => .error e)

end Sys2Proof.Machine
end

