-- ==== Sys2Proof/Machine/Unpacker.lean ====
section
/-!
DEFINITION. The bit-unpacker commands (42_unpacker.md R160 to R162).
-/

namespace Sys2Proof.Machine

/-- `sel(UBYTE, UIDX)`, a barrel shift of the byte (R160). -/
def sel (ubyte : Byte) (uidx : Nat) : BitVec 1 := (ubyte >>> (7 - uidx)).setWidth 1

/-- `UP_BIT`'s step on a new byte `b`, when `UIDX = 8` (R161). -/
def Unpacker.stepNew (u : Unpacker) (b : Byte) : Unpacker :=
  { ubyte := b, uidx := 1, bytes := u.bytes + 1, bits := u.bits + 1 }

/-- `UP_BIT`'s step within a byte (R161). -/
def Unpacker.stepSame (u : Unpacker) : Unpacker :=
  { u with uidx := u.uidx + 1, bits := u.bits + 1 }

/-- `UP_CLR`'s step (R162). -/
def Unpacker.clear (_ : Unpacker) : Unpacker := { ubyte := 0, uidx := 8, bytes := 0, bits := 0 }

/-- `UP_BIT` (R161): the next bit of the input stream; with `UIDX = 8` it pops the source's head, and an empty source holds the
command, which then changes nothing (R273). -/
def execUpBit (s : State) : Result :=
  if s.up.uidx = 8 then
    match s.source with
    | [] => .next s
    | b :: rest =>
      s.runCommand .upBit (.ok ((s.withSource rest).withUp (s.up.stepNew b), zext32 (b.extractLsb' 7 1)))
  else
    s.runCommand .upBit (.ok (s.withUp s.up.stepSame, zext32 (sel s.up.ubyte s.up.uidx.val)))

/-- `UP_CLR` (R162). -/
def execUpClr (s : State) : Result :=
  s.runCommand .upClr (.ok (s.withUp s.up.clear, 0))

end Sys2Proof.Machine
end

