-- ==== Sys2Proof/Machine/Dispatch.lean ====
section
/-!
DEFINITION. One arm per command: `exec i s` is what `i`, on the command port at state `s`, writes at the edge (R264 step 2).
-/

namespace Sys2Proof.Machine

def exec (i : Instr) (s : State) : Host.Outcome State Fault Refusal :=
  match i with
  | .nop => Sys2Proof.Machine.execNop s
  | .rd reg => Sys2Proof.Machine.execRd reg s
  | .wr h reg imm => Sys2Proof.Machine.execWr h reg imm s
  | .pkBit p => Sys2Proof.Machine.execPkBit p s
  | .pkBits n d => Sys2Proof.Machine.execPkBits n d s
  | .pkFlush => Sys2Proof.Machine.execPkFlush s
  | .pkClr => Sys2Proof.Machine.execPkClr s
  | .upBit => Sys2Proof.Machine.execUpBit s
  | .upClr => Sys2Proof.Machine.execUpClr s
  | .fiCfg a b => Sys2Proof.Machine.execFiCfg a b s
  | .fiAddr a b => Sys2Proof.Machine.execFiAddr a b s
  | .fiSplit => Sys2Proof.Machine.execFiSplit s
  | .fiCount => Sys2Proof.Machine.execFiCount s
  | .scStart => Sys2Proof.Machine.execScStart s

end Sys2Proof.Machine
end

