-- ==== Sys2Proof/Machine/Step.lean ====
section
/-!
DEFINITION. One step is one clock cycle (00_scope.md R7, 70_reset_and_hazards.md R263, R264).
-/

namespace Sys2Proof.Machine

/-- One clock cycle of the core and its closing edge: reset (R260), or R264's steps with the accepted command, if any. -/
def step (s : State) : Host.Outcome State Fault Refusal :=
  if s.inputs.rst then .next s.resetEdge
  else match s.accepted with
    | none => .next (s.closeCycle s)
    | some w => match decode w with
      | .error _ => .next (s.closeCycle (runIllegal w s))
      | .ok i => mapNext s.closeCycle (exec i s)

/-- `s` with the word whose bits are `w` presented so that the next step accepts and runs it (log 6). -/
def State.withFetchWord (s : State) (nbits w : Nat) : State := s.present (BitVec.ofNat 32 (w % 2 ^ nbits))

end Sys2Proof.Machine
end

