-- ==== Sys2Proof/Machine/Assembler.lean ====
section
/-!
DEFINITION. The assembler syntax and the pseudo-instructions (30_encoding.md R104, R105): a line of text to the words it stands for.
The core reads words only; nothing of the step uses this file.
-/

namespace Sys2Proof.Machine

/-- Every register of R50, in the table's order. -/
def RegName.all : List RegName :=
  [.id, .status, .irqEn, .errCode, .errCmd, .now, .pkState, .pkBytes, .upState, .upBytes, .upBits] ++
  [.fiWidth, .fiHeight, .fiRes, .fiNbytes, .fiFrames, .fiFrm, .fiG, .fiQf, .fiQr, .fiQc, .fiBaddr, .fiBsel] ++
  [.scState, .scInterval, .scNframes, .scDebt, .scFstart, .scSleep, .scFidx]

/-- R50, column `name`. -/
def RegName.name : RegName → String
  | .id => "ID"
  | .status => "STATUS"
  | .irqEn => "IRQ_EN"
  | .errCode => "ERR_CODE"
  | .errCmd => "ERR_CMD"
  | .now => "NOW"
  | .pkState => "PK_STATE"
  | .pkBytes => "PK_BYTES"
  | .upState => "UP_STATE"
  | .upBytes => "UP_BYTES"
  | .upBits => "UP_BITS"
  | .fiWidth => "FI_WIDTH"
  | .fiHeight => "FI_HEIGHT"
  | .fiRes => "FI_RES"
  | .fiNbytes => "FI_NBYTES"
  | .fiFrames => "FI_FRAMES"
  | .fiFrm => "FI_FRM"
  | .fiG => "FI_G"
  | .fiQf => "FI_QF"
  | .fiQr => "FI_QR"
  | .fiQc => "FI_QC"
  | .fiBaddr => "FI_BADDR"
  | .fiBsel => "FI_BSEL"
  | .scState => "SC_STATE"
  | .scInterval => "SC_INTERVAL"
  | .scNframes => "SC_NFRAMES"
  | .scDebt => "SC_DEBT"
  | .scFstart => "SC_FSTART"
  | .scSleep => "SC_SLEEP"
  | .scFidx => "SC_FIDX"

/-- A line of assembly: a command of R104, `.word`, or a pseudo-instruction of R105. -/
inductive AsmLine where
  | cmd (c : Written)
  | word (w : Nat)
  | wr32 (reg v : Nat)
  | pkByte (b : Nat)
  | stClr (m : Nat)
  | irqEnable (m : Nat)
  | fiFrame (f : Nat)
  | fiIndex (g : Nat)
  deriving DecidableEq, Repr

/-- The word of a well-formed written command; none where an operand does not fit its field (R104). -/
def writtenWord (c : Written) : Option Word := c.toInstr?.map encode

/-- `wr32 REG, v`: the low half, then the high half (R105); refused where `v` has more than 32 bits. -/
def assembleWr32 (reg v : Nat) : Option (List Word) :=
  if v < 2 ^ 32 then do
    let lo ← writtenWord (.wr 0 reg (v % 65536))
    let hi ← writtenWord (.wr 1 reg (v / 65536))
    pure [lo, hi]
  else none

/-- The words a line stands for; none where the assembler refuses it (R104, R105). -/
def AsmLine.assemble : AsmLine → Option (List Word)
  | .cmd c => (writtenWord c).map fun w => [w]
  | .word w => if w < 2 ^ 32 then some [BitVec.ofNat 32 w] else none
  | .wr32 reg v => assembleWr32 reg v
  | .pkByte b => (writtenWord (.pkBits 8 b)).map fun w => [w]
  | .stClr m => (writtenWord (.wr 0 RegName.status.index.toNat m)).map fun w => [w]
  | .irqEnable m => (writtenWord (.wr 0 RegName.irqEn.index.toNat m)).map fun w => [w]
  | .fiFrame f => assembleWr32 RegName.fiFrm.index.toNat f
  | .fiIndex g => assembleWr32 RegName.fiG.index.toNat g

/-- The value of a digit, in any base up to 16. -/
def digitValue (c : Char) : Option Nat :=
  if '0'.toNat ≤ c.toNat ∧ c.toNat ≤ '9'.toNat then some (c.toNat - '0'.toNat)
  else if 'a'.toNat ≤ c.toNat ∧ c.toNat ≤ 'f'.toNat then some (c.toNat - 'a'.toNat + 10)
  else if 'A'.toNat ≤ c.toNat ∧ c.toNat ≤ 'F'.toNat then some (c.toNat - 'A'.toNat + 10)
  else none

/-- The number a list of digits stands for after `acc`. -/
def digitsFrom (base acc : Nat) : List Char → Option Nat
  | [] => some acc
  | c :: cs => match digitValue c with
    | some d => if d < base then digitsFrom base (acc * base + d) cs else none
    | none => none

/-- A number with at least one digit. -/
def digits (base : Nat) : List Char → Option Nat
  | [] => none
  | cs => digitsFrom base 0 cs

/-- An operand: "decimal, or hexadecimal with `0x`, or binary with `0b`" (R104). -/
def parseNumber : List Char → Option Nat
  | '0' :: 'x' :: cs => digits 16 cs
  | '0' :: 'b' :: cs => digits 2 cs
  | cs => digits 10 cs

/-- A register: its name of R50, or its index as a number (DEDUCED, log 12). -/
def parseReg (cs : List Char) : Option Nat :=
  match RegName.all.find? (fun r => r.name.toList == cs) with
  | some r => some r.index.toNat
  | none => parseNumber cs

/-- A half: `REG.lo` is `h = 0` and `REG.hi` is `h = 1` (R104). -/
def parseHalf (cs : List Char) : Option (Nat × Nat) :=
  let h := match cs.dropWhile (· != '.') with
    | ['.', 'l', 'o'] => some 0
    | ['.', 'h', 'i'] => some 1
    | _ => none
  match h, parseReg (cs.takeWhile (· != '.')) with
  | some h, some reg => some (h, reg)
  | _, _ => none

/-- The words of a line, separated by spaces and commas; `cur` is the word read so far, its last character first. -/
def tokensFrom (cur : List Char) : List Char → List (List Char)
  | [] => if cur.isEmpty then [] else [cur.reverse]
  | c :: cs =>
    if c == ' ' || c == ',' then
      (if cur.isEmpty then tokensFrom [] cs else cur.reverse :: tokensFrom [] cs)
    else tokensFrom (c :: cur) cs

/-- A line whose mnemonic takes no operand (R104). -/
def parseNullary (m : List Char) : Option AsmLine :=
  if m == "nop".toList then some (.cmd .nop)
  else if m == "pk.flush".toList then some (.cmd .pkFlush)
  else if m == "pk.clr".toList then some (.cmd .pkClr)
  else if m == "up.bit".toList then some (.cmd .upBit)
  else if m == "up.clr".toList then some (.cmd .upClr)
  else if m == "fi.split".toList then some (.cmd .fiSplit)
  else if m == "fi.count".toList then some (.cmd .fiCount)
  else if m == "sc.start".toList then some (.cmd .scStart)
  else none

/-- A line whose mnemonic takes one operand (R104, R105). -/
def parseUnary (m a : List Char) : Option AsmLine :=
  if m == "rd".toList then (parseReg a).map fun r => .cmd (.rd r)
  else if m == "pk.bit".toList then (parseNumber a).map fun p => .cmd (.pkBit p)
  else if m == ".word".toList then (parseNumber a).map .word
  else if m == "pk.byte".toList then (parseNumber a).map .pkByte
  else if m == "st.clr".toList then (parseNumber a).map .stClr
  else if m == "irq.en".toList then (parseNumber a).map .irqEnable
  else if m == "fi.frm".toList then (parseNumber a).map .fiFrame
  else if m == "fi.g".toList then (parseNumber a).map .fiIndex
  else none

/-- A line whose mnemonic takes two operands (R104, R105). -/
def parseBinary (m a b : List Char) : Option AsmLine :=
  match parseNumber b with
  | none => none
  | some v =>
    if m == "wr".toList then (parseHalf a).map fun (h, reg) => .cmd (.wr h reg v)
    else if m == "wr32".toList then (parseReg a).map fun reg => .wr32 reg v
    else if m == "pk.bits".toList then (parseNumber a).map fun n => .cmd (.pkBits n v)
    else if m == "fi.cfg".toList then (parseNumber a).map fun w => .cmd (.fiCfg w v)
    else if m == "fi.addr".toList then (parseNumber a).map fun r => .cmd (.fiAddr r v)
    else none

/-- A line of text as a line of assembly. -/
def parseLine (line : String) : Option AsmLine :=
  match tokensFrom [] line.toList with
  | [m] => parseNullary m
  | [m, a] => parseUnary m a
  | [m, a, b] => parseBinary m a b
  | _ => none

/-- The words a line of text stands for. -/
def assembleLine (line : String) : Option (List Word) := (parseLine line).bind AsmLine.assemble

end Sys2Proof.Machine
end

