-- ==== Sys2Proof/Safety.lean ====
section
/-!
DEFINITION. The terms claims use: the invariants of 10_state.md R55 and R37, running several cycles or several commands, how a run
ends, is cut or hangs (70_reset_and_hazards.md R281), and the environment's duties read as fairness (R280, R282).
-/

namespace Sys2Proof.Machine

/-- R55 item 1: `ACC < 2^CNT`. -/
abbrev State.accBounded (s : State) : Prop := s.pk.acc.toNat < 2 ^ s.pk.cnt.toNat

/-- R55 item 2: `UP_BITS = u32(8·UP_BYTES - (8 - UIDX))`. -/
abbrev State.bitsCounted (s : State) : Prop :=
  s.up.bits = 8 * s.up.bytes - BitVec.ofNat 32 (8 - s.up.uidx.val)

/-- R55 item 3: `FI_RES = FI_WIDTH × FI_HEIGHT`, and all three are 0 or all three are nonzero. -/
abbrev State.resConfigured (s : State) : Prop :=
  s.fi.res.toNat = s.fi.width.toNat * s.fi.height.toNat ∧ (s.fi.width = 0 ↔ s.fi.height = 0)

/-- R55 item 4: `FI_FRAMES = 0`, or it is `(8·FI_NBYTES) div FI_RES` with `FI_RES ≠ 0`. -/
abbrev State.framesFresh (s : State) : Prop :=
  s.fi.frames = 0 ∨ (s.fi.res ≠ 0 ∧ s.fi.frames.toNat = 8 * s.fi.nbytes.toNat / s.fi.res.toNat)

/-- R55 item 5: `-2^31 ≤ s32(SC_DEBT) ≤ 0`. -/
abbrev State.debtNonpositive (s : State) : Prop := -2 ^ 31 ≤ s.sc.debt.toInt ∧ s.sc.debt.toInt ≤ 0

/-- R55 item 6: while running, `SC_FIDX < SC_NFRAMES`, `SC_NFRAMES ≥ 1` and `SC_INTERVAL ≥ 1`. -/
abbrev State.runInRange (s : State) : Prop :=
  s.sc.st.running = true →
    s.sc.fidx.toNat < s.sc.nframes.toNat ∧ 1 ≤ s.sc.nframes.toNat ∧ 1 ≤ s.sc.interval.toNat

/-- R55 item 7: `SC_FCODE ≠ 0` exactly when `SC_ST = FAULT`. -/
abbrev State.faultCoded (s : State) : Prop := s.sc.fcode ≠ 0 ↔ s.sc.st = .fault

/-- R37: `ERR_CODE` and `ERR_CMD` are 0 while `CMD_ERR = 0`. -/
abbrev State.recordClean (s : State) : Prop :=
  s.status.getLsbD 0 = false → s.errCode = 0 ∧ s.errCmd = 0

/-- The invariants of R55, items 1 to 7, and of R37. -/
structure State.Inv (s : State) : Prop where
  accBounded : s.accBounded
  bitsCounted : s.bitsCounted
  resConfigured : s.resConfigured
  framesFresh : s.framesFresh
  debtNonpositive : s.debtNonpositive
  runInRange : s.runInRange
  faultCoded : s.faultCoded
  recordClean : s.recordClean

/-- The state after `k` cycles; none if a cycle stops. -/
def after : Nat → State → Option State
  | 0, s => some s
  | k + 1, s => match step s with
    | .next t => after k t
    | _ => none

/-- The environment takes the response and, if there is one, the output byte (R25, R26). -/
def State.settle (s : State) : State :=
  { s with
    rsp := { s.rsp with v := false }
    pk := { s.pk with outV := false }
    sink := if s.pk.outV then s.sink ++ [s.pk.outbuf] else s.sink }

/-- Several commands, each accepted, and its response and its byte taken, before the next: the last state and the responses. -/
def feed : List Instr → State → Option (State × List Response)
  | [], s => some (s, [])
  | i :: is, s => match exec i s with
    | .next t => (feed is t.settle).map fun (u, rs) => (u, t.rspPort :: rs)
    | _ => none

/-- An endless sequence of cycles: `f n` is the state at cycle boundary `n`, the start of cycle `n` (R263). -/
def IsRun (f : Nat → State) : Prop := ∀ n, step (f n) = .next (f (n + 1))

/-- Right after an edge with `rst = 1`: the state of R54, with any streams, commands and inputs. -/
def State.justReset (s : State) : Prop :=
  s = { State.reset with sink := s.sink, source := s.source, cmds := s.cmds, schedule := s.schedule, clock := s.clock }

/-- A run begins with cycle `b`, whose edge is the first with `rst = 0` after a reset (R281). -/
def RunBegins (f : Nat → State) (b : Nat) : Prop := (f b).justReset ∧ (f b).inputs.rst = false

/-- No edge of the cycles from `b` up to the boundary `n` has `rst = 1`. -/
def Uncut (f : Nat → State) (b n : Nat) : Prop := ∀ k, b ≤ k → k < n → (f k).inputs.rst = false

/-- "the host has no command left to present (`cmd_valid = 0` from there on)", whether or not words are left in `cmds`
(R281 item 1). -/
def NoCommandLeft (f : Nat → State) (n : Nat) : Prop := ∀ k, n ≤ k → (f k).presented = none

/-- The four conditions of R281 hold at the cycle boundary `n`. -/
structure EndPoint (f : Nat → State) (n : Nat) : Prop where
  noCommandLeft : NoCommandLeft f n
  responsesTaken : (f n).rsp.v = false
  bytesInSink : (f n).pk.outV = false
  schedulerStopped : (f n).sc.st.running = false

/-- The run that began with cycle `b` ends at the first such boundary (R281). -/
def RunEnds (f : Nat → State) (b n : Nat) : Prop :=
  b ≤ n ∧ Uncut f b n ∧ EndPoint f n ∧ ∀ m, b ≤ m → m < n → ¬ EndPoint f m

/-- It ends cleanly (R281). -/
def EndsCleanly (f : Nat → State) (b n : Nat) : Prop :=
  RunEnds f b n ∧ (f n).cmdErr = false ∧ (f n).sc.st ≠ .fault

/-- It ends faulted: it ends, and not cleanly (R281). -/
def EndsFaulted (f : Nat → State) (b n : Nat) : Prop :=
  RunEnds f b n ∧ ((f n).cmdErr = true ∨ (f n).sc.st = .fault)

/-- The run that began with cycle `b` is cut by the edge of cycle `n`, before any end point.  It ends with `f n`, the state
it had before that edge, whose `sc` is its scheduler result and whose `log` is what was observed of it (R281). -/
def RunCut (f : Nat → State) (b n : Nat) : Prop :=
  b ≤ n ∧ Uncut f b n ∧ (f n).inputs.rst = true ∧ ∀ m, b ≤ m → m ≤ n → ¬ EndPoint f m

/-- The run that began with cycle `b` is neither cut nor reaches an end point: a hold or a wait is never lifted (R281, R270 to
R274). -/
def Hangs (f : Nat → State) (b : Nat) : Prop := ∀ n, b ≤ n → (f n).inputs.rst = false ∧ ¬ EndPoint f n

/-- A condition that is met again and again by what the environment does, whenever it is waited for (R282). -/
def Eventually (f : Nat → State) (waits met : State → Bool) : Prop :=
  ∀ n, waits (f n) = true → ∃ m, n ≤ m ∧ (met (f m) = true ∨ waits (f m) = false)

/-- The duties of R280, read as weak fairness (R282): each wait of R270 to R274 is met by the agent whose duty it is. -/
structure Fair (f : Nat → State) : Prop where
  takesResponses : Eventually f (·.rsp.v) (·.rspTaken)
  takesBytes : Eventually f (·.pk.outV) (·.boTaken)
  presentsBytes : Eventually f (fun s => s.up.uidx == 8 && s.presented.any (fun w => opcodeOf w == 0x10)) (·.biValid)
  raisesFrameReady : Eventually f (·.sc.st == .waitReady) (·.inputs.frameReady)
  answersRenders : Eventually f (·.sc.st == .render) (fun s => s.inputs.rdDone || s.inputs.rdErr)
  pulsesTick : Eventually f (fun s => s.sc.st == .sleep && s.sc.sleep != 0) (·.inputs.tick)

end Sys2Proof.Machine
end

