-- ==== Sys2Proof/Certificates/Slice0/Obligations.lean ====
section
/-!
DEFINITION. The statements for the provers, and before them the words they are stated in, written from the spec's own tables and
not from the model's operations.

A statement of the form `exec i s = .next { s with … }` says the instruction's result AND its frame: every field of the state
that the update does not name, every register, flag, stream and byte, is unchanged.
-/

open Sys2Proof Sys2Proof.Machine

namespace Sys2Proof.Claims

/-- A response without error (R29). -/
def okRsp (d : Nat) : ResponseBuffer := { v := true, err := false, data := BitVec.ofNat 32 d }

/-- What an error with this code of R230 leaves, `w` being the offending word: the response, `STATUS.CMD_ERR`, and the record if
`CMD_ERR` was 0; nothing else changes (R232, R233). -/
def errored (s : State) (w code : Nat) : State :=
  { s with
    rsp := { v := true, err := true, data := BitVec.ofNat 32 code }
    status := s.status ||| 0b001#3
    errCode := if s.status.getLsbD 0 then s.errCode else BitVec.ofNat 4 code
    errCmd := if s.status.getLsbD 0 then s.errCmd else BitVec.ofNat 32 w }

/-- R200's numbers. -/
def scNumber : SchedState → Nat
  | .idle => 0
  | .waitReady => 1
  | .render => 2
  | .sleep => 3
  | .done => 4
  | .fault => 5

/-- The register map of R50: each allocated index with the register's value, its fields at their bit positions. -/
def registerTable (s : State) : List (Nat × Nat) :=
  [(0x00, 0x42564330), (0x01, s.status.toNat), (0x02, s.irqEn.toNat), (0x03, s.errCode.toNat), (0x04, s.errCmd.toNat),
   (0x05, s.now.toNat)] ++
  [(0x08, s.pk.acc.toNat + s.pk.cnt.toNat * 2 ^ 8 + s.pk.outV.toNat * 2 ^ 16 + s.pk.outbuf.toNat * 2 ^ 24),
   (0x09, s.pk.bytes.toNat)] ++
  [(0x0C, s.up.ubyte.toNat + s.up.uidx.val * 2 ^ 8), (0x0D, s.up.bytes.toNat), (0x0E, s.up.bits.toNat)] ++
  [(0x10, s.fi.width.toNat), (0x11, s.fi.height.toNat), (0x12, s.fi.res.toNat), (0x13, s.fi.nbytes.toNat),
   (0x14, s.fi.frames.toNat), (0x15, s.fi.frm.toNat), (0x16, s.fi.g.toNat), (0x17, s.fi.qf.toNat), (0x18, s.fi.qr.toNat),
   (0x19, s.fi.qc.toNat), (0x1A, s.fi.g.toNat / 8), (0x1B, 7 - s.fi.g.toNat % 8)] ++
  [(0x20, scNumber s.sc.st + s.sc.fcode.toNat * 2 ^ 4), (0x21, s.sc.interval.toNat), (0x22, s.sc.nframes.toNat),
   (0x23, s.sc.debt.toNat), (0x24, s.sc.fstart.toNat), (0x25, s.sc.sleep.toNat), (0x26, s.sc.fidx.toNat)]

/-- R51: the unallocated indices. -/
def Unallocated (idx : Nat) : Prop :=
  idx = 0x06 ∨ idx = 0x07 ∨ idx = 0x0A ∨ idx = 0x0B ∨ idx = 0x0F ∨ (0x1C ≤ idx ∧ idx ≤ 0x1F) ∨ (0x27 ≤ idx ∧ idx ≤ 0x3F)

/-- R50, column `access`: the seven indices a `WR` may write. -/
def Writable (idx : Nat) : Prop :=
  idx = 0x01 ∨ idx = 0x02 ∨ idx = 0x13 ∨ idx = 0x15 ∨ idx = 0x16 ∨ idx = 0x21 ∨ idx = 0x22

/-- A 32-bit register with its low (`h = 0`) or high (`h = 1`) 16-bit half replaced (R122). -/
def withHalf (old : Word) (h : BitVec 1) (imm : BitVec 16) : Word :=
  if h = 0 then BitVec.ofNat 32 (old.toNat / 65536 * 65536 + imm.toNat)
  else BitVec.ofNat 32 (imm.toNat * 65536 + old.toNat % 65536)

/-- R99's pattern of a `WR` word. -/
def wrWord (h : BitVec 1) (reg : BitVec 6) (imm : BitVec 16) : Nat :=
  0x08000000 + h.toNat * 2 ^ 22 + reg.toNat * 2 ^ 16 + imm.toNat

/-- "The scheduler is *running* when `SC_ST` is in {WAIT_READY, RENDER, SLEEP}" (R200). -/
def Running (s : State) : Prop := s.sc.st = .waitReady ∨ s.sc.st = .render ∨ s.sc.st = .sleep

/-- R24: `cmd_ready` for a word on `cmd_word`. -/
def Ready (s : State) (w : Word) : Prop :=
  s.inputs.rst = false ∧ s.rsp.v = false ∧
  ¬ (0x08 ≤ w.toNat / 2 ^ 26 ∧ w.toNat / 2 ^ 26 ≤ 0x0B ∧ s.pk.outV = true) ∧
  ¬ (w.toNat / 2 ^ 26 = 0x10 ∧ s.up.uidx = 8 ∧ (s.inputs.biValid = false ∨ s.source = []))

/-- The host presents `w`, with `rest` behind it. -/
def Presents (s : State) (w : Word) (rest : List Word) : Prop := s.inputs.cmdValid = true ∧ s.cmds = w :: rest

/-- R207: `elapsed = ((NOW - SC_FSTART) mod 2^32) + s32(SC_DEBT)`, an exact integer. -/
def elapsed (s : State) : Int :=
  (((s.now.toNat + 2 ^ 32 - s.sc.fstart.toNat) % 2 ^ 32 : Nat) : Int) + s.sc.debt.toInt

/-- The scheduler enters `DONE` at the coming edge (R212). -/
def DoneEvent (s : State) : Prop := s.sc.st = .sleep ∧ s.sc.sleep = 0 ∧ s.sc.fidx.toNat + 1 = s.sc.nframes.toNat

/-- The scheduler enters `FAULT` at the coming edge (R206, R209). -/
def FaultEvent (s : State) : Prop :=
  s.sc.st = .render ∧
    (s.inputs.rdErr = true ∨
      (s.inputs.rdDone = true ∧ elapsed s ≤ s.sc.interval.toNat ∧ elapsed s - s.sc.interval.toNat < -2 ^ 31))

/-- The word accepted at the coming edge is a `WR` of the low half of `STATUS` whose `imm[i]` is 1 (R123). -/
def Clears (s : State) (i : Nat) : Prop :=
  ∃ w rest, Presents s w rest ∧ Ready s w ∧ w.toNat / 2 ^ 16 = 0x0801 ∧ w.getLsbD i = true

/-- R264, R265: `t` is the state at the edge of a cycle with `rst = 0` that began in `s`, where `u` is `s` with the writes of step 2
alone, and `rest` is what the host still presents.  Of `u`, `t` keeps every register that no other step writes; `OUT_V` and `RSP_V`
are cleared where the byte or the response is taken; the scheduler's events are set in `STATUS` over the command's write.  How the
model holds the host's words and the inputs of the coming cycles (`environment`) is logs 1 to 3, the model's choice. -/
structure Closes (s u t : State) (rest : List Word) : Prop where
  commandWrites : t.up = u.up ∧ t.fi = u.fi ∧ t.irqEn = u.irqEn ∧ t.errCode = u.errCode ∧ t.errCmd = u.errCmd ∧
    t.source = u.source
  packer : t.pk = { u.pk with outV := u.pk.outV && !(s.pk.outV && s.inputs.boReady) }
  response : t.rsp = { u.rsp with v := u.rsp.v && !(s.rsp.v && s.inputs.rspReady) }
  sink : t.sink = s.sink ++ if s.pk.outV && s.inputs.boReady then [s.pk.outbuf] else []
  stopped : ¬ Running s → t.sc = u.sc
  running : Running s → t.sc.interval = s.sc.interval ∧ t.sc.nframes = s.sc.nframes
  status : ∀ i < 3, t.status.getLsbD i = true ↔
    u.status.getLsbD i = true ∨ (i = 1 ∧ DoneEvent s) ∨ (i = 2 ∧ FaultEvent s)
  now : t.now = s.now + BitVec.ofNat 32 s.inputs.tick.toNat
  environment : t.cmds = rest ∧ t.schedule = s.schedule.tail ∧ t.clock = s.clock + 1

/-- R100's table of `(match, mask)` pairs. -/
def matchTable : List (Nat × Nat) :=
  [(0x00000000, 0xFFFFFFFF), (0x04000000, 0xFFC0FFFF), (0x08000000, 0xFF800000), (0x20000000, 0xFFFFFFFE),
   (0x24000000, 0xFFFFF000), (0x28000000, 0xFFFFFFFF), (0x2C000000, 0xFFFFFFFF)] ++
  [(0x40000000, 0xFFFFFFFF), (0x44000000, 0xFFFFFFFF), (0x60000000, 0xFC000000), (0x64000000, 0xFC000000),
   (0x68000000, 0xFFFFFFFF), (0x6C000000, 0xFFFFFFFF), (0x80000000, 0xFFFFFFFF)]

/-- The word of each command with its fields, by the word patterns of R99. -/
def wordOf : Instr → Nat
  | .nop => 0x00000000
  | .rd reg => 0x04000000 + reg.toNat * 2 ^ 16
  | .wr h reg imm => wrWord h reg imm
  | .pkBit p => 0x20000000 + p.toNat
  | .pkBits n d => 0x24000000 + n.toNat * 2 ^ 8 + d.toNat
  | .pkFlush => 0x28000000
  | .pkClr => 0x2C000000
  | .upBit => 0x40000000
  | .upClr => 0x44000000
  | .fiCfg a b => 0x60000000 + a.toNat * 2 ^ 13 + b.toNat
  | .fiAddr a b => 0x64000000 + a.toNat * 2 ^ 13 + b.toNat
  | .fiSplit => 0x68000000
  | .fiCount => 0x6C000000
  | .scStart => 0x80000000

/-- The commands of the packer, the unpacker and the frame indexer (R99). -/
def isPacker : Instr → Bool
  | .pkBit _ | .pkBits _ _ | .pkFlush | .pkClr => true
  | _ => false
def isUnpacker : Instr → Bool
  | .upBit | .upClr => true
  | _ => false
def isFrameIndexer : Instr → Bool
  | .fiCfg _ _ | .fiAddr _ _ | .fiSplit | .fiCount => true
  | _ => false
def isWr : Instr → Bool
  | .wr _ _ _ => true
  | _ => false

/-- A pixel as the operand of `PK_BIT`. -/
def pixel (p : Bool) : BitVec 1 := BitVec.ofBool p

/-- The pixels a packer command carries, in order (R141, R142). -/
def carried : Instr → List Bool
  | .pkBit p => [p.getLsbD 0]
  | .pkBits n d => (List.range n.toNat).reverse.map fun j => d.getLsbD j
  | _ => []

/-- A `PK_BIT`, or a `PK_BITS` with a legal count (R142). -/
def CarriesPixels : Instr → Prop
  | .pkBit _ => True
  | .pkBits n _ => 1 ≤ n.toNat ∧ n.toNat ≤ 8
  | _ => False

/-- The bits of a byte in stream order, bit 7 first (R73). -/
def bitsOf (b : Byte) : List Bool := (List.range 8).map fun i => b.getLsbD (7 - i)

/-- `UP_BIT`'s response for a bit (R161). -/
def bitRsp (p : Bool) : Response := { err := false, data := BitVec.ofNat 32 p.toNat }

end Sys2Proof.Claims

open Sys2Proof.Claims

/-! ## Encoding -/

/-- R92 to R100: every command's word decodes to that command, every operand at every value its field admits. -/
def Obligations.DecodeOfEncode : Prop := ∀ i : Instr, decode (encode i) = .ok i

/-- R90, R100: a legal word is the word of the command it decodes to, so no bit of it is dropped. -/
def Obligations.EncodeOfDecode : Prop := ∀ (w : Word) (i : Instr), decode w = .ok i → encode i = w

/-- R100: a word decodes to a command with its fields exactly when it is that command's word; it decodes to a command of a row of
the table exactly when `w & mask = match` for that row; every other word is illegal, and no two rows match one word. -/
def Obligations.LegalWordsMatchTable : Prop :=
  ∀ w : Word,
    (∀ i : Instr, decode w = .ok i ↔ w.toNat = wordOf i) ∧
    (∀ r ∈ matchTable,
      (∃ i : Instr, decode w = .ok i ∧ i.pattern = BitVec.ofNat 32 r.1 ∧ i.mask = BitVec.ofNat 32 r.2) ↔
        w &&& BitVec.ofNat 32 r.2 = BitVec.ofNat 32 r.1) ∧
    (∀ i, decode w = .ok i → ∃ r ∈ matchTable, w &&& BitVec.ofNat 32 r.2 = BitVec.ofNat 32 r.1) ∧
    (matchTable.Pairwise fun r q =>
      ¬ (w &&& BitVec.ofNat 32 r.2 = BitVec.ofNat 32 r.1 ∧ w &&& BitVec.ofNat 32 q.2 = BitVec.ofNat 32 q.1))

/-- R106: the encoding examples. -/
def Obligations.ExampleWordsDecode : Prop :=
  decode 0x00000000#32 = .ok .nop ∧
  decode 0x04230000#32 = .ok (.rd 0x23) ∧
  decode 0x0821000A#32 = .ok (.wr 0 0x21 10) ∧
  decode 0x08610001#32 = .ok (.wr 1 0x21 1) ∧
  decode 0x20000001#32 = .ok (.pkBit 1) ∧
  decode 0x24000409#32 = .ok (.pkBits 4 0b1001) ∧
  decode 0x240008A5#32 = .ok (.pkBits 8 0xA5) ∧
  decode 0x28000000#32 = .ok .pkFlush ∧
  decode 0x40000000#32 = .ok .upBit ∧
  decode 0x60004002#32 = .ok (.fiCfg 2 2) ∧
  decode 0x63FFFFFF#32 = .ok (.fiCfg 8191 8191) ∧
  decode 0x64002000#32 = .ok (.fiAddr 1 0) ∧
  decode 0x6C000000#32 = .ok .fiCount ∧
  decode 0x80000000#32 = .ok .scStart ∧
  decode 0x0C000000#32 = .error .reservedOpcode ∧
  decode 0x20000002#32 = .error .reservedField

/-! ## System commands -/

/-- R120: `NOP`'s only word, its hold, and its effect, which is the response alone. -/
def Obligations.NopOnlyResponds : Prop :=
  (∀ w : Word, decode w = .ok .nop ↔ w.toNat = 0x00000000) ∧
  ∀ s : State,
    (s.rsp.v = true → exec .nop s = .next s) ∧
    (s.rsp.v = false → exec .nop s = .next { s with rsp := okRsp 0 })

/-- R121, with the values of R50: `RD` responds the register's value and changes nothing else; an unallocated index raises `REG`. -/
def Obligations.RdRespondsRegister : Prop :=
  (∀ (w : Word) (reg : BitVec 6), decode w = .ok (.rd reg) ↔ w.toNat = 0x04000000 + reg.toNat * 2 ^ 16) ∧
  ∀ (s : State) (reg : BitVec 6),
    (s.rsp.v = true → exec (.rd reg) s = .next s) ∧
    (s.rsp.v = false → ∀ v, (reg.toNat, v) ∈ registerTable s → exec (.rd reg) s = .next { s with rsp := okRsp v }) ∧
    (s.rsp.v = false → Unallocated reg.toNat →
      exec (.rd reg) s = .next (errored s (0x04000000 + reg.toNat * 2 ^ 16) 3))

/-- R122's word, hold and checks: `REG` for an index that may not be written, then `BUSY` for a guarded one while running. -/
def Obligations.WrChecksInOrder : Prop :=
  (∀ (w : Word) (h : BitVec 1) (reg : BitVec 6) (imm : BitVec 16),
    decode w = .ok (.wr h reg imm) ↔ w.toNat = wrWord h reg imm) ∧
  ∀ (s : State) (h : BitVec 1) (reg : BitVec 6) (imm : BitVec 16),
    (s.rsp.v = true → exec (.wr h reg imm) s = .next s) ∧
    (s.rsp.v = false → ¬ Writable reg.toNat → exec (.wr h reg imm) s = .next (errored s (wrWord h reg imm) 3)) ∧
    (s.rsp.v = false → (reg.toNat = 0x21 ∨ reg.toNat = 0x22) → Running s →
      exec (.wr h reg imm) s = .next (errored s (wrWord h reg imm) 6))

/-- R123: the W1C write of `STATUS`, with the error record; the high half changes nothing; a bit the scheduler sets at the same
edge is set. -/
def Obligations.WrStatusClearsBits : Prop :=
  (∀ s t : State, s.inputs.rst = false → step s = .next t →
    (DoneEvent s → t.status.getLsbD 1 = true) ∧ (FaultEvent s → t.status.getLsbD 2 = true)) ∧
  ∀ (s : State) (imm : BitVec 16), s.rsp.v = false →
    exec (.wr 1 0x01 imm) s = .next { s with rsp := okRsp 0 } ∧
    ∃ t, exec (.wr 0 0x01 imm) s = .next t ∧
      (∀ i < 3, t.status.getLsbD i = (s.status.getLsbD i && !imm.getLsbD i)) ∧
      t = { s with
        rsp := okRsp 0
        status := t.status
        errCode := if imm.getLsbD 0 then 0 else s.errCode
        errCmd := if imm.getLsbD 0 then 0 else s.errCmd }

/-- R124: the write of `IRQ_EN`; the high half changes nothing; `irq` follows the new enables from the next cycle. -/
def Obligations.WrIrqEnWritesEnables : Prop :=
  (∀ (s : State) (imm : BitVec 16), s.rsp.v = false →
    exec (.wr 0 0x02 imm) s = .next { s with rsp := okRsp 0, irqEn := BitVec.ofNat 3 imm.toNat } ∧
    exec (.wr 1 0x02 imm) s = .next { s with rsp := okRsp 0 }) ∧
  ∀ (s t : State) (imm : BitVec 16) (rest : List Word),
    Presents s (BitVec.ofNat 32 (0x08020000 + imm.toNat)) rest → Ready s (BitVec.ofNat 32 (0x08020000 + imm.toNat)) →
    step s = .next t →
    (t.irq = true ↔ t.inputs.rst = false ∧ ∃ i < 3, t.status.getLsbD i = true ∧ imm.getLsbD i = true)

/-- R125: a write of either half of `FI_NBYTES` makes `FI_FRAMES` 0. -/
def Obligations.WrNbytesInvalidatesCount : Prop :=
  ∀ (s : State) (h : BitVec 1) (imm : BitVec 16), s.rsp.v = false →
    exec (.wr h 0x13 imm) s =
      .next { s with rsp := okRsp 0, fi := { s.fi with nbytes := withHalf s.fi.nbytes h imm, frames := 0 } }

/-- R126: a write of `SC_INTERVAL` or `SC_NFRAMES` while the scheduler is stopped; while it runs, neither is written. -/
def Obligations.WrSchedulerConfig : Prop :=
  ∀ (s : State) (h : BitVec 1) (imm : BitVec 16), s.rsp.v = false →
    (¬ Running s →
      exec (.wr h 0x21 imm) s =
        .next { s with rsp := okRsp 0, sc := { s.sc with interval := withHalf s.sc.interval h imm } } ∧
      exec (.wr h 0x22 imm) s =
        .next { s with rsp := okRsp 0, sc := { s.sc with nframes := withHalf s.sc.nframes h imm } }) ∧
    (Running s → ∀ reg, reg = 0x21 ∨ reg = 0x22 → ∃ t, exec (.wr h reg imm) s = .next t ∧ t.rsp.err = true ∧ t.sc = s.sc)

/-- R127: a write of `FI_FRM` or `FI_G`; the results of `FI_SPLIT` are not changed, and the derived registers follow `FI_G`. -/
def Obligations.WrFrameIndexInputs : Prop :=
  ∀ (s : State) (h : BitVec 1) (imm : BitVec 16), s.rsp.v = false →
    exec (.wr h 0x15 imm) s =
      .next { s with rsp := okRsp 0, fi := { s.fi with frm := withHalf s.fi.frm h imm } } ∧
    ∃ t, exec (.wr h 0x16 imm) s = .next t ∧
      t = { s with rsp := okRsp 0, fi := { s.fi with g := withHalf s.fi.g h imm } } ∧
      (t.readReg .fiBaddr).toNat = (withHalf s.fi.g h imm).toNat / 8 ∧
      (t.readReg .fiBsel).toNat = 7 - (withHalf s.fi.g h imm).toNat % 8

/-! ## Bit-packer -/

/-- R141, with the bit-step of R140. -/
def Obligations.PkBitPacksOnePixel : Prop :=
  (∀ (w : Word) (p : BitVec 1), decode w = .ok (.pkBit p) ↔ w.toNat = 0x20000000 + p.toNat) ∧
  ∀ (s : State) (p : BitVec 1),
    (s.rsp.v = true ∨ s.pk.outV = true → exec (.pkBit p) s = .next s) ∧
    (s.rsp.v = false → s.pk.outV = false → s.pk.cnt.toNat + 1 ≠ 8 →
      exec (.pkBit p) s = .next { s with
        rsp := okRsp 0
        pk := { s.pk with
          acc := BitVec.ofNat 8 ((s.pk.acc.toNat * 2 + p.toNat) % 2 ^ 8)
          cnt := BitVec.ofNat 3 (s.pk.cnt.toNat + 1) } }) ∧
    (s.rsp.v = false → s.pk.outV = false → s.pk.cnt.toNat + 1 = 8 →
      exec (.pkBit p) s = .next { s with
        rsp := okRsp 0
        pk := {
          outbuf := BitVec.ofNat 8 ((s.pk.acc.toNat * 2 + p.toNat) % 2 ^ 8), outV := true
          bytes := BitVec.ofNat 32 (s.pk.bytes.toNat + 1), acc := 0, cnt := 0 } })

/-- R142: `PK_BITS` by its pseudocode, `t = CNT + n` and `v = ACC·2^n + d mod 2^n`; in a state with `ACC < 2^CNT` (R55 item 1)
the byte pushed is `v >> (t - 8)` itself. -/
def Obligations.PkBitsPacksGroup : Prop :=
  (∀ (w : Word) (n : BitVec 4) (d : BitVec 8),
    decode w = .ok (.pkBits n d) ↔ w.toNat = 0x24000000 + n.toNat * 2 ^ 8 + d.toNat) ∧
  ∀ (s : State) (n : BitVec 4) (d : BitVec 8),
    (s.rsp.v = true ∨ s.pk.outV = true → exec (.pkBits n d) s = .next s) ∧
    (s.rsp.v = false → s.pk.outV = false → (n.toNat = 0 ∨ 8 < n.toNat) →
      exec (.pkBits n d) s = .next (errored s (0x24000000 + n.toNat * 2 ^ 8 + d.toNat) 2)) ∧
    (s.rsp.v = false → s.pk.outV = false → 1 ≤ n.toNat → n.toNat ≤ 8 → s.accBounded →
      ∃ t, exec (.pkBits n d) s = .next t ∧
        t = { s with rsp := okRsp 0, pk := t.pk } ∧
        (s.pk.cnt.toNat + n.toNat < 8 →
          t.pk.acc.toNat = s.pk.acc.toNat * 2 ^ n.toNat + d.toNat % 2 ^ n.toNat ∧
          t.pk.cnt.toNat = s.pk.cnt.toNat + n.toNat ∧
          t.pk.bytes = s.pk.bytes ∧ t.pk.outV = false ∧ t.pk.outbuf = s.pk.outbuf) ∧
        (8 ≤ s.pk.cnt.toNat + n.toNat →
          t.pk.outbuf.toNat =
            (s.pk.acc.toNat * 2 ^ n.toNat + d.toNat % 2 ^ n.toNat) / 2 ^ (s.pk.cnt.toNat + n.toNat - 8) ∧
          t.pk.outV = true ∧ t.pk.bytes = s.pk.bytes + 1 ∧
          t.pk.acc.toNat =
            (s.pk.acc.toNat * 2 ^ n.toNat + d.toNat % 2 ^ n.toNat) % 2 ^ (s.pk.cnt.toNat + n.toNat - 8) ∧
          t.pk.cnt.toNat = s.pk.cnt.toNat + n.toNat - 8))

/-- R142's equivalence: `PK_BITS n, d` and the `n` commands `PK_BIT d[n-1]` to `PK_BIT d[0]` leave the same `ACC`, `CNT` and
`PK_BYTES` and send the same bytes to `SINK`, in every state that meets R55 item 1. -/
def Obligations.PkBitsEqualsPkBitSequence : Prop :=
  ∀ (s : State) (n : BitVec 4) (d : BitVec 8),
    s.rsp.v = false → s.pk.outV = false → s.accBounded → 1 ≤ n.toNat → n.toNat ≤ 8 →
    ∃ t u rs qs,
      feed [.pkBits n d] s = some (t, rs) ∧
      feed ((List.range n.toNat).reverse.map fun j => .pkBit (pixel (d.getLsbD j))) s = some (u, qs) ∧
      t.pk.acc = u.pk.acc ∧ t.pk.cnt = u.pk.cnt ∧ t.pk.bytes = u.pk.bytes ∧ t.sink = u.sink

/-- R143: the zero-padded partial byte, or nothing. -/
def Obligations.PkFlushPadsPartialByte : Prop :=
  (∀ w : Word, decode w = .ok .pkFlush ↔ w.toNat = 0x28000000) ∧
  ∀ s : State,
    (s.rsp.v = true ∨ s.pk.outV = true → exec .pkFlush s = .next s) ∧
    (s.rsp.v = false → s.pk.outV = false → s.pk.cnt.toNat = 0 → exec .pkFlush s = .next { s with rsp := okRsp 0 }) ∧
    (s.rsp.v = false → s.pk.outV = false → s.pk.cnt.toNat ≠ 0 →
      exec .pkFlush s = .next { s with
        rsp := okRsp 0
        pk := {
          outbuf := BitVec.ofNat 8 (s.pk.acc.toNat * 2 ^ (8 - s.pk.cnt.toNat) % 2 ^ 8), outV := true
          bytes := BitVec.ofNat 32 (s.pk.bytes.toNat + 1), acc := 0, cnt := 0 } })

/-- R144: the partial byte and the count are discarded; the output buffer and `SINK` are not touched. -/
def Obligations.PkClrDiscardsPartialByte : Prop :=
  (∀ w : Word, decode w = .ok .pkClr ↔ w.toNat = 0x2C000000) ∧
  ∀ s : State,
    (s.rsp.v = true ∨ s.pk.outV = true → exec .pkClr s = .next s) ∧
    (s.rsp.v = false → s.pk.outV = false →
      exec .pkClr s = .next { s with rsp := okRsp 0, pk := { s.pk with acc := 0, cnt := 0, bytes := 0 } })

/-- R145: from `ACC = 0`, `CNT = 0`, any packer commands that carry the pixels `ps`, one by one or in groups, and a flush append
exactly `ceil(n / 8)` bytes to `SINK`, with pixel `8j + i` in bit `7 - i` of byte `j` and zeros after the last pixel, and add their
number to `PK_BYTES`. -/
def Obligations.PackedStreamBytes : Prop :=
  ∀ (s : State) (cs : List Instr) (ps : List Bool),
    s.rsp.v = false → s.pk.outV = false → s.pk.acc = 0 → s.pk.cnt = 0 →
    (∀ i ∈ cs, CarriesPixels i) → ps = cs.flatMap carried →
    ∃ t rs bs,
      feed (cs ++ [.pkFlush]) s = some (t, rs) ∧
      t.sink = s.sink ++ bs ∧
      bs.length = (ps.length + 7) / 8 ∧
      (∀ j b, bs[j]? = some b → ∀ i < 8, b.getLsbD (7 - i) = ps.getD (8 * j + i) false) ∧
      t.pk.bytes = s.pk.bytes + BitVec.ofNat 32 bs.length

/-! ## Bit-unpacker -/

/-- R161, with the bit-select of R160: the next bit, and a new byte from the source exactly when `UIDX = 8`. -/
def Obligations.UpBitProducesNextBit : Prop :=
  (∀ w : Word, decode w = .ok .upBit ↔ w.toNat = 0x40000000) ∧
  ∀ s : State,
    (s.rsp.v = true → exec .upBit s = .next s) ∧
    (s.up.uidx = 8 → (s.inputs.biValid = false ∨ s.source = []) → exec .upBit s = .next s) ∧
    (s.rsp.v = false → s.up.uidx = 8 → s.inputs.biValid = true → ∀ b rest, s.source = b :: rest →
      exec .upBit s = .next { s with
        rsp := okRsp (b.toNat / 128)
        source := rest
        up := { ubyte := b, uidx := 1, bytes := BitVec.ofNat 32 (s.up.bytes.toNat + 1),
                bits := BitVec.ofNat 32 (s.up.bits.toNat + 1) } }) ∧
    (s.rsp.v = false → ∀ k : Fin 8, s.up.uidx.val = k.val →
      exec .upBit s = .next { s with
        rsp := okRsp (s.up.ubyte.toNat / 2 ^ (7 - k.val) % 2)
        up := { s.up with uidx := k.succ, bits := BitVec.ofNat 32 (s.up.bits.toNat + 1) } })

/-- R162: the current byte is discarded and the counts restart; the source is not touched. -/
def Obligations.UpClrDiscardsByte : Prop :=
  (∀ w : Word, decode w = .ok .upClr ↔ w.toNat = 0x44000000) ∧
  ∀ s : State,
    (s.rsp.v = true → exec .upClr s = .next s) ∧
    (s.rsp.v = false →
      exec .upClr s = .next { s with rsp := okRsp 0, up := { ubyte := 0, uidx := 8, bytes := 0, bits := 0 } })

/-- R163: from `UIDX = 8`, `8m` commands `UP_BIT` respond the bits of the source's first `m` bytes, bit 7 of each first, consume
exactly those bytes, add `m` and `8m` to the counts, and leave `UIDX = 8`. -/
def Obligations.UnpackedStreamBits : Prop :=
  ∀ (s : State) (bs rest : List Byte),
    s.rsp.v = false → s.up.uidx = 8 → s.inputs.biValid = true → s.source = bs ++ rest →
    ∃ t,
      feed (List.replicate (8 * bs.length) .upBit) s = some (t, (bs.flatMap bitsOf).map bitRsp) ∧
      t.source = rest ∧ t.up.uidx = 8 ∧
      t.up.bytes = s.up.bytes + BitVec.ofNat 32 bs.length ∧
      t.up.bits = s.up.bits + BitVec.ofNat 32 (8 * bs.length)

/-- R164: the bytes that packing `ps` and flushing sends to `SINK`, unpacked, give `ps` back, then zeros up to the byte's end. -/
def Obligations.PackThenUnpackRoundTrip : Prop :=
  ∀ (s u : State) (cs : List Instr) (ps : List Bool) (rest : List Byte),
    s.rsp.v = false → s.pk.outV = false → s.pk.acc = 0 → s.pk.cnt = 0 →
    (∀ i ∈ cs, CarriesPixels i) → ps = cs.flatMap carried →
    u.rsp.v = false → u.up.uidx = 8 → u.inputs.biValid = true →
    ∃ t rs bs v,
      feed (cs ++ [.pkFlush]) s = some (t, rs) ∧
      t.sink = s.sink ++ bs ∧
      feed (List.replicate (8 * bs.length) .upBit) { u with source := bs ++ rest } =
        some (v, (ps ++ List.replicate (8 * ((ps.length + 7) / 8) - ps.length) false).map bitRsp)

/-! ## Frame indexer -/

/-- R181. -/
def Obligations.FiCfgSetsDimensions : Prop :=
  (∀ (w : Word) (a b : BitVec 13),
    decode w = .ok (.fiCfg a b) ↔ w.toNat = 0x60000000 + a.toNat * 2 ^ 13 + b.toNat) ∧
  ∀ (s : State) (a b : BitVec 13),
    (s.rsp.v = true → exec (.fiCfg a b) s = .next s) ∧
    (s.rsp.v = false → (a.toNat = 0 ∨ b.toNat = 0) →
      exec (.fiCfg a b) s = .next (errored s (0x60000000 + a.toNat * 2 ^ 13 + b.toNat) 2)) ∧
    (s.rsp.v = false → a.toNat ≠ 0 → b.toNat ≠ 0 →
      ∃ t, exec (.fiCfg a b) s = .next t ∧ t.fi.res.toNat = a.toNat * b.toNat ∧
        t = { s with
          rsp := okRsp (a.toNat * b.toNat)
          fi := { s.fi with width := a, height := b, res := t.fi.res, frames := 0 } })

/-- R182: `g = FI_FRM·FI_RES + r·FI_WIDTH + c`, with its checks in order. -/
def Obligations.FiAddrComputesIndex : Prop :=
  (∀ (w : Word) (a b : BitVec 13),
    decode w = .ok (.fiAddr a b) ↔ w.toNat = 0x64000000 + a.toNat * 2 ^ 13 + b.toNat) ∧
  ∀ (s : State) (a b : BitVec 13) (g : Nat),
    g = s.fi.frm.toNat * s.fi.res.toNat + a.toNat * s.fi.width.toNat + b.toNat →
    (s.rsp.v = true → exec (.fiAddr a b) s = .next s) ∧
    (s.rsp.v = false → s.fi.res.toNat = 0 →
      exec (.fiAddr a b) s = .next (errored s (0x64000000 + a.toNat * 2 ^ 13 + b.toNat) 7)) ∧
    (s.rsp.v = false → s.fi.res.toNat ≠ 0 →
      (s.fi.height.toNat ≤ a.toNat ∨ s.fi.width.toNat ≤ b.toNat ∨ 2 ^ 32 ≤ g) →
      exec (.fiAddr a b) s = .next (errored s (0x64000000 + a.toNat * 2 ^ 13 + b.toNat) 5)) ∧
    (s.rsp.v = false → s.fi.res.toNat ≠ 0 → a.toNat < s.fi.height.toNat → b.toNat < s.fi.width.toNat → g < 2 ^ 32 →
      exec (.fiAddr a b) s = .next { s with rsp := okRsp g, fi := { s.fi with g := BitVec.ofNat 32 g } })

/-- R183: frame, row and column of `FI_G`, the row and the column within the frame, in every state that meets R55 item 3. -/
def Obligations.FiSplitSplitsIndex : Prop :=
  (∀ w : Word, decode w = .ok .fiSplit ↔ w.toNat = 0x68000000) ∧
  ∀ s : State,
    (s.rsp.v = true → exec .fiSplit s = .next s) ∧
    (s.rsp.v = false → s.fi.res.toNat = 0 → exec .fiSplit s = .next (errored s 0x68000000 7)) ∧
    (s.rsp.v = false → s.resConfigured → s.fi.res.toNat ≠ 0 →
      ∃ t, exec .fiSplit s = .next t ∧
        t = { s with
          rsp := okRsp (s.fi.g.toNat / s.fi.res.toNat)
          fi := { s.fi with
            qf := BitVec.ofNat 32 (s.fi.g.toNat / s.fi.res.toNat)
            qr := BitVec.ofNat 13 (s.fi.g.toNat % s.fi.res.toNat / s.fi.width.toNat)
            qc := BitVec.ofNat 13 (s.fi.g.toNat % s.fi.res.toNat % s.fi.width.toNat) } } ∧
        t.fi.qr.toNat < s.fi.height.toNat ∧ t.fi.qc.toNat < s.fi.width.toNat)

/-- R184: the number of full frames, with its checks in order. -/
def Obligations.FiCountCountsFullFrames : Prop :=
  (∀ w : Word, decode w = .ok .fiCount ↔ w.toNat = 0x6C000000) ∧
  ∀ (s : State) (fr : Nat), fr = 8 * s.fi.nbytes.toNat / s.fi.res.toNat →
    (s.rsp.v = true → exec .fiCount s = .next s) ∧
    (s.rsp.v = false → s.fi.res.toNat = 0 → exec .fiCount s = .next (errored s 0x6C000000 7)) ∧
    (s.rsp.v = false → s.fi.res.toNat ≠ 0 → fr = 0 → exec .fiCount s = .next (errored s 0x6C000000 4)) ∧
    (s.rsp.v = false → s.fi.res.toNat ≠ 0 → 2 ^ 32 ≤ fr → exec .fiCount s = .next (errored s 0x6C000000 5)) ∧
    (s.rsp.v = false → s.fi.res.toNat ≠ 0 → fr ≠ 0 → fr < 2 ^ 32 →
      exec .fiCount s = .next { s with rsp := okRsp fr, fi := { s.fi with frames := BitVec.ofNat 32 fr } })

/-- R180, R182, R183: `FI_SPLIT` after `FI_ADDR r, c` returns the frame, row and column that `FI_ADDR` was given. -/
def Obligations.SplitInvertsAddr : Prop :=
  ∀ (s t : State) (a b : BitVec 13),
    s.resConfigured → s.rsp.v = false → exec (.fiAddr a b) s = .next t → t.rsp.err = false →
    ∃ u rs, feed [.fiAddr a b, .fiSplit] s = some (u, rs) ∧
      u.fi.qf = s.fi.frm ∧ u.fi.qr = a ∧ u.fi.qc = b ∧
      rs = [{ err := false, data := t.fi.g }, { err := false, data := s.fi.frm }]

/-- R185: byte `FI_BADDR` of a stream holds pixel `FI_G` in bit `FI_BSEL`, which is the bit `sel` of R160 selects. -/
def Obligations.DerivedRegistersLocatePixel : Prop :=
  ∀ (s : State) (bs : List Byte),
    (s.readReg .fiBaddr).toNat = s.fi.g.toNat / 8 ∧ (s.readReg .fiBsel).toNat = 7 - s.fi.g.toNat % 8 ∧
    ∀ b, bs[(s.readReg .fiBaddr).toNat]? = some b →
      (bs.flatMap bitsOf)[s.fi.g.toNat]? = some (b.getLsbD (s.readReg .fiBsel).toNat) ∧
      (sel b (s.fi.g.toNat % 8)).toNat = b.toNat / 2 ^ (s.readReg .fiBsel).toNat % 2

/-! ## Scheduler -/

/-- R202: `SC_START`'s checks in order and its writes. -/
def Obligations.ScStartStartsPlayback : Prop :=
  (∀ w : Word, decode w = .ok .scStart ↔ w.toNat = 0x80000000) ∧
  ∀ s : State,
    (s.rsp.v = true → exec .scStart s = .next s) ∧
    (s.rsp.v = false → Running s → exec .scStart s = .next (errored s 0x80000000 6)) ∧
    (s.rsp.v = false → ¬ Running s → (s.sc.interval.toNat = 0 ∨ s.sc.nframes.toNat = 0) →
      exec .scStart s = .next (errored s 0x80000000 2)) ∧
    (s.rsp.v = false → ¬ Running s → s.sc.interval.toNat ≠ 0 → s.sc.nframes.toNat ≠ 0 → s.fi.frames.toNat = 0 →
      exec .scStart s = .next (errored s 0x80000000 4)) ∧
    (s.rsp.v = false → ¬ Running s → s.sc.interval.toNat ≠ 0 → s.fi.frames.toNat ≠ 0 →
      s.fi.frames.toNat < s.sc.nframes.toNat → exec .scStart s = .next (errored s 0x80000000 5)) ∧
    (s.rsp.v = false → ¬ Running s → s.sc.interval.toNat ≠ 0 → s.sc.nframes.toNat ≠ 0 →
      s.sc.nframes.toNat ≤ s.fi.frames.toNat →
      exec .scStart s = .next { s with
        rsp := okRsp 0
        sc := { s.sc with debt := 0, fidx := 0, sleep := 0, fcode := 0, st := .waitReady } })

/-- R204: in `WAIT_READY` a cycle with `frame_ready = 1` writes `SC_FSTART <- NOW` and enters `RENDER`; any other cycle leaves the
scheduler's registers as they are; whatever command the cycle accepts. -/
def Obligations.GateStartsFrame : Prop :=
  ∀ s : State, s.inputs.rst = false → s.sc.st = .waitReady →
    ∃ t, step s = .next t ∧
      t.sc = if s.inputs.frameReady then { s.sc with fstart := s.now, st := .render } else s.sc

/-- R206, R205: a render failure, which wins over `rd_done`; without an answer the request stays. -/
def Obligations.RenderFailureFaults : Prop :=
  ∀ s : State, s.inputs.rst = false → s.sc.st = .render →
    (s.inputs.rdErr = true →
      ∃ t, step s = .next t ∧ t.sc = { s.sc with st := .fault, fcode := 8 } ∧ t.status.getLsbD 2 = true) ∧
    (s.inputs.rdErr = false → s.inputs.rdDone = false → ∃ t, step s = .next t ∧ t.sc = s.sc)

/-- R208: an overrun resets the debt and sleeps 0 ticks; the comparison is strict. -/
def Obligations.OverrunResetsDebt : Prop :=
  ∀ s : State, s.inputs.rst = false → s.sc.st = .render → s.inputs.rdErr = false → s.inputs.rdDone = true →
    (s.sc.interval.toNat : Int) < elapsed s →
    ∃ t, step s = .next t ∧ t.sc = { s.sc with debt := 0, sleep := 0, st := .sleep }

/-- R209, with the sleep of R210: without an overrun the new debt is `elapsed - SC_INTERVAL` and the sleep its negative, or, below
`-2^31`, the `DEBTOVF` fault with debt, sleep and index kept. -/
def Obligations.SlackBecomesDebt : Prop :=
  ∀ s : State, s.inputs.rst = false → s.sc.st = .render → s.inputs.rdErr = false → s.inputs.rdDone = true →
    elapsed s ≤ s.sc.interval.toNat →
    (-2 ^ 31 ≤ elapsed s - s.sc.interval.toNat →
      ∃ t, step s = .next t ∧
        t.sc.debt.toInt = elapsed s - s.sc.interval.toNat ∧
        (t.sc.sleep.toNat : Int) = -(elapsed s - s.sc.interval.toNat) ∧
        t.sc = { s.sc with debt := t.sc.debt, sleep := t.sc.sleep, st := .sleep }) ∧
    (elapsed s - s.sc.interval.toNat < -2 ^ 31 →
      ∃ t, step s = .next t ∧ t.sc = { s.sc with st := .fault, fcode := 9 } ∧ t.status.getLsbD 2 = true)

/-- R211, R212: the sleep counts ticks, and the first cycle that begins with `SC_SLEEP = 0` ends it.  That `SC_FIDX = 2^32 - 1`, which
R55 item 6 rules out in `SLEEP`, is followed by 0 is the model's choice (log 8). -/
def Obligations.SleepCountsTicks : Prop :=
  ∀ s : State, s.inputs.rst = false → s.sc.st = .sleep →
    (s.sc.sleep ≠ 0 →
      ∃ t, step s = .next t ∧ t.sc = if s.inputs.tick then { s.sc with sleep := s.sc.sleep - 1 } else s.sc) ∧
    (s.sc.sleep = 0 → s.sc.fidx.toNat + 1 = s.sc.nframes.toNat →
      ∃ t, step s = .next t ∧ t.sc = { s.sc with fidx := s.sc.nframes, st := .done } ∧ t.status.getLsbD 1 = true) ∧
    (s.sc.sleep = 0 → s.sc.fidx.toNat + 1 ≠ s.sc.nframes.toNat →
      ∃ t, step s = .next t ∧ t.sc = { s.sc with fidx := s.sc.fidx + 1, st := .waitReady })

/-- R211: with a tick in every cycle and no reset, a sleep of `S` ticks lasts `S` cycles and one ending cycle.  For
`SC_FIDX = 2^32 - 1` the next index is the model's choice (log 8). -/
def Obligations.SleepLastsItsTicks : Prop :=
  ∀ (S : Nat) (s : State) (is rest : List Inputs),
    s.sc.st = .sleep → s.sc.sleep.toNat = S → s.schedule = is ++ rest → is.length = S + 1 →
    (∀ i ∈ is, i.rst = false ∧ i.tick = true) →
    ∃ t u, after S s = some t ∧ t.sc = { s.sc with sleep := 0 } ∧
      step t = .next u ∧ (u.sc.st = .done ∨ u.sc.st = .waitReady) ∧ u.sc.fidx = s.sc.fidx + 1

/-- R218: with a tick in every cycle and the gate open, a frame that is not the last and is answered `m` cycles after its gate takes
exactly `m + S + 2` cycles from its gate cycle to the next frame's, `S` being its sleep (R210): what is left of the interval, or 0
where the frame overruns.  For `SC_FIDX = 2^32 - 1` the next index is the model's choice (log 8). -/
def Obligations.FramePeriod : Prop :=
  ∀ (s : State) (m S : Nat) (is rest : List Inputs),
    s.sc.st = .waitReady → 1 ≤ m → m < 2 ^ 32 → S ≤ 2 ^ 31 →
    ((m : Int) + s.sc.debt.toInt + S = s.sc.interval.toNat ∨
      S = 0 ∧ (s.sc.interval.toNat : Int) < (m : Int) + s.sc.debt.toInt) →
    s.sc.fidx.toNat + 1 ≠ s.sc.nframes.toNat →
    s.schedule = is ++ rest → is.length = m + S + 2 →
    (∀ k i, is[k]? = some i →
      i.rst = false ∧ i.tick = true ∧ i.frameReady = true ∧ i.rdErr = false ∧ (i.rdDone = true ↔ k = m)) →
    ∃ t, after (m + S + 2) s = some t ∧
      t.sc.st = .waitReady ∧ t.sc.fidx = s.sc.fidx + 1 ∧ t.sc.debt.toInt = -(S : Int) ∧ t.sc.sleep = 0 ∧
      t.now = s.now + BitVec.ofNat 32 (m + S + 2)

/-- R216: where every render takes `m ≤ I` ticks, the debt after frame `k` is `k·(m - I)` and its sleep `k·(I - m)`: one more frame
after `k` of them. -/
def Obligations.ConstantRenderGrowsSleep : Prop :=
  ∀ (s : State) (m k : Nat),
    s.inputs.rst = false → s.sc.st = .render → s.inputs.rdErr = false → s.inputs.rdDone = true →
    s.now = s.sc.fstart + BitVec.ofNat 32 m → m ≤ s.sc.interval.toNat →
    s.sc.debt.toInt = -((k * (s.sc.interval.toNat - m) : Nat) : Int) →
    (k + 1) * (s.sc.interval.toNat - m) ≤ 2 ^ 31 →
    ∃ t, step s = .next t ∧ t.sc.st = .sleep ∧
      t.sc.debt.toInt = -(((k + 1) * (s.sc.interval.toNat - m) : Nat) : Int) ∧
      t.sc.sleep.toNat = (k + 1) * (s.sc.interval.toNat - m)

/-- R201: only reset changes `SC_INTERVAL` or `SC_NFRAMES` while the scheduler runs. -/
def Obligations.RunningConfigIsConstant : Prop :=
  ∀ s t : State, Running s → s.inputs.rst = false → step s = .next t →
    t.sc.interval = s.sc.interval ∧ t.sc.nframes = s.sc.nframes

/-- R264: a running scheduler sees nothing of the command of the same cycle, nor of any state but its own registers, `NOW` and the
cycle's inputs. -/
def Obligations.RunningSchedulerIgnoresCommands : Prop :=
  ∀ s s' t t' : State, Running s → s.sc = s'.sc → s.now = s'.now → s.inputs = s'.inputs → s.inputs.rst = false →
    step s = .next t → step s' = .next t' → t.sc = t'.sc

/-- R219: in a stopped state nothing is requested of the renderer, the scheduler registers change only by an accepted `SC_START` or
`WR`, its state only by `SC_START`, and `SC_DONE` and `SC_FAULT` are not set. -/
def Obligations.StoppedSchedulerTakesNoStep : Prop :=
  ∀ s : State, ¬ Running s → s.inputs.rst = false →
    s.rdReq = false ∧
    ∃ t, step s = .next t ∧
      ((∀ w rest, Presents s w rest → Ready s w → w.toNat ≠ 0x80000000) → t.sc.st = s.sc.st) ∧
      ((∀ w rest, Presents s w rest → Ready s w → ¬ (w.toNat = 0x80000000 ∨ 0x08000000 ≤ w.toNat ∧ w.toNat < 0x0C000000)) →
        t.sc = s.sc) ∧
      (t.status.getLsbD 1 = true → s.status.getLsbD 1 = true) ∧
      (t.status.getLsbD 2 = true → s.status.getLsbD 2 = true)

/-- R28: the render request, and the renderer's answer, which is ignored outside `RENDER`. -/
def Obligations.RendererAnswersOnlyRequests : Prop :=
  ∀ s : State,
    (s.rdReq = true ↔ s.sc.st = .render ∧ s.inputs.rst = false) ∧ s.rdFrame = s.sc.fidx ∧
    (s.sc.st ≠ .render → ∀ (i : Inputs) (rest : List Inputs) (done err : Bool), s.schedule = i :: rest →
      step { s with schedule := { i with rdDone := done, rdErr := err } :: rest } = step s)

/-! ## The command frame, errors and the interrupt output -/

/-- R23, R24, R270: a command that a hold keeps is not executed: nothing changes. -/
def Obligations.HeldCommandChangesNothing : Prop :=
  ∀ (i : Instr) (s : State), s.inputs.rst = false → ¬ Ready s (encode i) → exec i s = .next s

/-- R29, R233: every accepted command completes with exactly one response, which says by `err` whether it raised an error. -/
def Obligations.EveryCommandResponds : Prop :=
  ∀ (i : Instr) (s : State), Ready s (encode i) →
    ∃ t, exec i s = .next t ∧ t.rsp.v = true ∧ (t.rsp.err = false ∨ t = errored s (encode i).toNat t.rsp.data.toNat)

/-- R233, R230: a command that raises an error, with a code from 2 to 7, writes the response and the record and nothing else. -/
def Obligations.ErrorsWriteNothingElse : Prop :=
  ∀ (i : Instr) (s t : State), Ready s (encode i) → exec i s = .next t → t.rsp.err = true →
    ∃ c, 2 ≤ c ∧ c ≤ 7 ∧ t = errored s (encode i).toNat c

/-- R265, step 2: which commands may write which unit; no command writes `NOW`, `SINK` or what the environment holds. -/
def Obligations.CommandsWriteTheirUnit : Prop :=
  ∀ (i : Instr) (s t : State), exec i s = .next t →
    (isPacker i = false → t.pk = s.pk) ∧
    (isUnpacker i = false → t.up = s.up ∧ t.source = s.source) ∧
    (isFrameIndexer i = false → isWr i = false → t.fi = s.fi) ∧
    (i ≠ .scStart → isWr i = false → t.sc = s.sc) ∧
    (isWr i = true → t.sc = { s.sc with interval := t.sc.interval, nframes := t.sc.nframes }) ∧
    (isWr i = false → t.irqEn = s.irqEn) ∧
    t.now = s.now ∧ t.sink = s.sink ∧ t.cmds = s.cmds ∧ t.schedule = s.schedule ∧ t.clock = s.clock ∧ t.log = s.log

/-- R30: the interrupt level. -/
def Obligations.IrqLevel : Prop :=
  ∀ s : State, s.irq = true ↔
    s.inputs.rst = false ∧ ∃ i < 3, s.status.getLsbD i = true ∧ s.irqEn.getLsbD i = true

/-- R265: each flag at the edge is the old one less the cycle's W1C clear, or set by the cycle's events: a set wins. -/
def Obligations.StatusSetWinsOverClear : Prop :=
  ∀ s t : State, s.inputs.rst = false → step s = .next t →
    (t.status.getLsbD 1 = true ↔ (s.status.getLsbD 1 = true ∧ ¬ Clears s 1) ∨ DoneEvent s) ∧
    (t.status.getLsbD 2 = true ↔ (s.status.getLsbD 2 = true ∧ ¬ Clears s 2) ∨ FaultEvent s) ∧
    (t.status.getLsbD 0 = true ↔
      (s.status.getLsbD 0 = true ∧ ¬ Clears s 0) ∨
      (∃ w rest, Presents s w rest ∧ Ready s w ∧ t.rsp.err = true))

/-! ## The cycle -/

/-- R264, R265: a presented, ready word that decodes to a command is executed as `exec` says, and the next state is the state after
the command, field by field, but for what the other steps of the cycle write. -/
def Obligations.StepRunsDecodedCommand : Prop :=
  ∀ (s u : State) (w : Word) (rest : List Word) (i : Instr),
    Presents s w rest → Ready s w → decode w = .ok i → exec i s = .next u →
    ∃ t, step s = .next t ∧ Closes s u t rest ∧ t.rsp = u.rsp

/-- R101, R233: an accepted illegal word raises `ILLEGAL` and has no other effect: the next state is the state with the error's
response and record, field by field, but for what the other steps of the cycle write. -/
def Obligations.StepRefusesIllegalWord : Prop :=
  ∀ (s : State) (w : Word) (rest : List Word),
    Presents s w rest → Ready s w → (∀ i, decode w ≠ .ok i) →
    ∃ t, step s = .next t ∧ Closes s (errored s w.toNat 1) t rest ∧
      t.rsp = { v := true, err := true, data := BitVec.ofNat 32 1 }

/-- R23, R270, R264: a ready word is accepted and leaves the port.  In every other cycle with `rst = 0`, nothing being presented or
what is presented being held, no unit executes anything: the next state is the state, field by field, but for what the steps other
than 2 write, and the host's words and an empty response buffer stay.  That a reset leaves the host's words as they are is the
model's choice (log 3). -/
def Obligations.CommandPortAcceptsOrHolds : Prop :=
  ∀ s : State,
    (s.inputs.rst = false → ∀ w rest, Presents s w rest → Ready s w →
      ∃ t, step s = .next t ∧ t.cmds = rest ∧ t.rsp.v = true) ∧
    (s.inputs.rst = false → (∀ w rest, Presents s w rest → ¬ Ready s w) →
      ∃ t, step s = .next t ∧ Closes s s t s.cmds ∧ (s.rsp.v = false → t.rsp = s.rsp)) ∧
    (s.inputs.rst = true → ∃ t, step s = .next t ∧ t.cmds = s.cmds)

/-- Every cycle has a next state: no error, hold or wait stops the machine (R237, R274). -/
def Obligations.EveryCycleSteps : Prop := ∀ s : State, ∃ t, step s = .next t

/-- R40: `NOW` counts the ticks of the edges with `rst = 0`, modulo `2^32`. -/
def Obligations.NowCountsTicks : Prop :=
  ∀ s : State, s.inputs.rst = false →
    ∃ t, step s = .next t ∧ t.now.toNat = (s.now.toNat + s.inputs.tick.toNat) % 2 ^ 32

/-- R25: a presented response is taken at an edge with `rsp_ready = 1`, and stays otherwise. -/
def Obligations.ResponseStaysUntilTaken : Prop :=
  ∀ s : State,
    (s.rspValid = true ↔ s.rsp.v = true ∧ s.inputs.rst = false) ∧
    s.rspPort = { err := s.rsp.err, data := s.rsp.data } ∧
    (s.rspValid = true →
      ∃ t, step s = .next t ∧ t.rsp = if s.inputs.rspReady then { s.rsp with v := false } else s.rsp)

/-- R26, R71: at an edge where the sink takes the presented byte it is appended to `SINK`, and nothing else, reset among it, changes
`SINK`; a byte not taken stays. -/
def Obligations.SinkTakesOutputByte : Prop :=
  ∀ s t : State, step s = .next t →
    (s.boValid = true ↔ s.pk.outV = true ∧ s.inputs.rst = false) ∧ s.boData = s.pk.outbuf ∧
    (s.pk.outV = true → s.inputs.rst = false → s.inputs.boReady = true →
      t.sink = s.sink ++ [s.pk.outbuf] ∧ t.pk.outV = false) ∧
    (¬ (s.pk.outV = true ∧ s.inputs.rst = false ∧ s.inputs.boReady = true) → t.sink = s.sink) ∧
    (s.pk.outV = true → s.inputs.rst = false → s.inputs.boReady = false → t.pk = s.pk)

/-- R27, R72: `bi_ready` is 1 exactly when the accepted word is `UP_BIT` and `UIDX = 8`; then, and only then, the head of `SOURCE` is
consumed and becomes `UBYTE`. -/
def Obligations.SourceConsumedByUpBit : Prop :=
  ∀ s t : State, step s = .next t →
    (s.biReady = true ↔ (∃ rest, Presents s 0x40000000#32 rest) ∧ Ready s 0x40000000#32 ∧ s.up.uidx = 8) ∧
    (s.biReady = true → s.biValid = true ∧ ∃ b, s.biData = some b ∧ s.source = b :: t.source ∧ t.up.ubyte = b) ∧
    (s.biReady = false → t.source = s.source)

/-- R260, with the values of R54: the edge with `rst = 1`, in any state, whatever is presented; the outputs of R22 are low. -/
def Obligations.ResetEdgeResets : Prop :=
  ∀ s : State, s.inputs.rst = true →
    (∀ w, s.cmdReady w = false) ∧ s.rspValid = false ∧ s.boValid = false ∧ s.biReady = false ∧ s.rdReq = false ∧ s.irq = false ∧
    ∃ t, step s = .next t ∧
      t.pk = { acc := 0, cnt := 0, bytes := 0, outV := false, outbuf := 0 } ∧
      t.up = { ubyte := 0, uidx := 8, bytes := 0, bits := 0 } ∧
      t.fi = { width := 0, height := 0, res := 0, nbytes := 0, frames := 0, frm := 0, g := 0, qf := 0, qr := 0, qc := 0 } ∧
      t.sc = { st := .idle, fcode := 0, interval := 0, nframes := 0, debt := 0, fstart := 0, sleep := 0, fidx := 0 } ∧
      t.status = 0 ∧ t.errCode = 0 ∧ t.errCmd = 0 ∧ t.irqEn = 0 ∧ t.now = 0 ∧
      t.rsp = { v := false, err := false, data := 0 } ∧
      t.sink = s.sink ∧ t.source = s.source

/-! ## Invariants -/

/-- R55, R37: the invariants hold right after reset. -/
def Obligations.InvariantAtReset : Prop := State.reset.Inv

/-- R55, R37: from every state that meets the invariants, every cycle leads to a state that meets them. -/
def Obligations.StepKeepsInvariant : Prop := ∀ s t : State, s.Inv → step s = .next t → t.Inv

/-! ## Runs -/

/-- R281, as log 14 keeps it: what each cycle adds to the observation of the run, and that a reset edge empties it. -/
def Obligations.LogRecordsCycle : Prop :=
  ∀ s t : State, step s = .next t →
    (s.inputs.rst = true →
      t.log = { cycle := 0, responses := [], appended := [], consumed := 0, renders := [], gates := [] }) ∧
    (s.inputs.rst = false →
      t.log.cycle = s.log.cycle + 1 ∧
      t.log.responses =
        s.log.responses ++ (if s.rsp.v && s.inputs.rspReady then [{ err := s.rsp.err, data := s.rsp.data }] else []) ∧
      (∃ bs, t.sink = s.sink ++ bs ∧ t.log.appended = s.log.appended ++ bs) ∧
      t.log.consumed + t.source.length = s.log.consumed + s.source.length ∧
      t.log.renders = s.log.renders ++ (if s.sc.st = .render then [(s.log.cycle, s.sc.fidx)] else []) ∧
      t.log.gates =
        s.log.gates ++ (if s.sc.st = .waitReady ∧ s.inputs.frameReady = true then [(s.log.cycle, s.sc.fidx)] else []))

/-- R281: from an end point on, as long as no reset comes, nothing but `NOW`, the count of cycles and the inputs still to come
changes, so the observation at the end point is the run's. -/
def Obligations.EndedRunIsFinal : Prop :=
  ∀ (f : Nat → State) (n m : Nat), IsRun f → EndPoint f n → n ≤ m → Uncut f n m →
    f m = { f n with
      now := (f m).now, schedule := (f m).schedule, clock := (f m).clock
      log := { (f n).log with cycle := (f n).log.cycle + (m - n) } }
end

