-- ==== Sys2Proof/Laws/State.lean ====
section
/-!
SUPPORT. One lemma per field per named update of the state, so that no later proof unfolds a record update.
-/

namespace Sys2Proof.Machine.State

/-! Responding writes the response buffer and nothing else (R29). -/

@[simp] theorem respond_pk (s : State) (e : Bool) (d : Word) :
    (s.respond e d).pk = s.pk := rfl
@[simp] theorem respond_up (s : State) (e : Bool) (d : Word) :
    (s.respond e d).up = s.up := rfl
@[simp] theorem respond_fi (s : State) (e : Bool) (d : Word) :
    (s.respond e d).fi = s.fi := rfl
@[simp] theorem respond_sc (s : State) (e : Bool) (d : Word) :
    (s.respond e d).sc = s.sc := rfl
@[simp] theorem respond_status (s : State) (e : Bool) (d : Word) :
    (s.respond e d).status = s.status := rfl
@[simp] theorem respond_irqEn (s : State) (e : Bool) (d : Word) :
    (s.respond e d).irqEn = s.irqEn := rfl
@[simp] theorem respond_errCode (s : State) (e : Bool) (d : Word) :
    (s.respond e d).errCode = s.errCode := rfl
@[simp] theorem respond_errCmd (s : State) (e : Bool) (d : Word) :
    (s.respond e d).errCmd = s.errCmd := rfl
@[simp] theorem respond_now (s : State) (e : Bool) (d : Word) :
    (s.respond e d).now = s.now := rfl
@[simp] theorem respond_rsp (s : State) (e : Bool) (d : Word) :
    (s.respond e d).rsp = { v := true, err := e, data := d } := rfl
@[simp] theorem respond_sink (s : State) (e : Bool) (d : Word) :
    (s.respond e d).sink = s.sink := rfl
@[simp] theorem respond_source (s : State) (e : Bool) (d : Word) :
    (s.respond e d).source = s.source := rfl
@[simp] theorem respond_cmds (s : State) (e : Bool) (d : Word) :
    (s.respond e d).cmds = s.cmds := rfl
@[simp] theorem respond_schedule (s : State) (e : Bool) (d : Word) :
    (s.respond e d).schedule = s.schedule := rfl
@[simp] theorem respond_clock (s : State) (e : Bool) (d : Word) :
    (s.respond e d).clock = s.clock := rfl
@[simp] theorem respond_log (s : State) (e : Bool) (d : Word) :
    (s.respond e d).log = s.log := rfl

/-! Recording an error writes `STATUS.CMD_ERR` and the record (R232). -/

@[simp] theorem recordError_pk (s : State) (w : Word) (e : CommandError) :
    (s.recordError w e).pk = s.pk := rfl
@[simp] theorem recordError_up (s : State) (w : Word) (e : CommandError) :
    (s.recordError w e).up = s.up := rfl
@[simp] theorem recordError_fi (s : State) (w : Word) (e : CommandError) :
    (s.recordError w e).fi = s.fi := rfl
@[simp] theorem recordError_sc (s : State) (w : Word) (e : CommandError) :
    (s.recordError w e).sc = s.sc := rfl
@[simp] theorem recordError_status (s : State) (w : Word) (e : CommandError) :
    (s.recordError w e).status = setStatus s.status statusCmdErr := rfl
@[simp] theorem recordError_irqEn (s : State) (w : Word) (e : CommandError) :
    (s.recordError w e).irqEn = s.irqEn := rfl
@[simp] theorem recordError_errCode (s : State) (w : Word) (e : CommandError) :
    (s.recordError w e).errCode = if s.cmdErr then s.errCode else e.code := rfl
@[simp] theorem recordError_errCmd (s : State) (w : Word) (e : CommandError) :
    (s.recordError w e).errCmd = if s.cmdErr then s.errCmd else w := rfl
@[simp] theorem recordError_now (s : State) (w : Word) (e : CommandError) :
    (s.recordError w e).now = s.now := rfl
@[simp] theorem recordError_rsp (s : State) (w : Word) (e : CommandError) :
    (s.recordError w e).rsp = s.rsp := rfl
@[simp] theorem recordError_sink (s : State) (w : Word) (e : CommandError) :
    (s.recordError w e).sink = s.sink := rfl
@[simp] theorem recordError_source (s : State) (w : Word) (e : CommandError) :
    (s.recordError w e).source = s.source := rfl
@[simp] theorem recordError_cmds (s : State) (w : Word) (e : CommandError) :
    (s.recordError w e).cmds = s.cmds := rfl
@[simp] theorem recordError_schedule (s : State) (w : Word) (e : CommandError) :
    (s.recordError w e).schedule = s.schedule := rfl
@[simp] theorem recordError_clock (s : State) (w : Word) (e : CommandError) :
    (s.recordError w e).clock = s.clock := rfl
@[simp] theorem recordError_log (s : State) (w : Word) (e : CommandError) :
    (s.recordError w e).log = s.log := rfl

/-! Raising an error writes the record and the response and nothing else (R233). -/

@[simp] theorem raise_pk (s : State) (w : Word) (e : CommandError) :
    (s.raise w e).pk = s.pk := rfl
@[simp] theorem raise_up (s : State) (w : Word) (e : CommandError) :
    (s.raise w e).up = s.up := rfl
@[simp] theorem raise_fi (s : State) (w : Word) (e : CommandError) :
    (s.raise w e).fi = s.fi := rfl
@[simp] theorem raise_sc (s : State) (w : Word) (e : CommandError) :
    (s.raise w e).sc = s.sc := rfl
@[simp] theorem raise_status (s : State) (w : Word) (e : CommandError) :
    (s.raise w e).status = setStatus s.status statusCmdErr := rfl
@[simp] theorem raise_irqEn (s : State) (w : Word) (e : CommandError) :
    (s.raise w e).irqEn = s.irqEn := rfl
@[simp] theorem raise_errCode (s : State) (w : Word) (e : CommandError) :
    (s.raise w e).errCode = if s.cmdErr then s.errCode else e.code := rfl
@[simp] theorem raise_errCmd (s : State) (w : Word) (e : CommandError) :
    (s.raise w e).errCmd = if s.cmdErr then s.errCmd else w := rfl
@[simp] theorem raise_now (s : State) (w : Word) (e : CommandError) :
    (s.raise w e).now = s.now := rfl
@[simp] theorem raise_rsp (s : State) (w : Word) (e : CommandError) :
    (s.raise w e).rsp = { v := true, err := true, data := zext32 e.code } := rfl
@[simp] theorem raise_sink (s : State) (w : Word) (e : CommandError) :
    (s.raise w e).sink = s.sink := rfl
@[simp] theorem raise_source (s : State) (w : Word) (e : CommandError) :
    (s.raise w e).source = s.source := rfl
@[simp] theorem raise_cmds (s : State) (w : Word) (e : CommandError) :
    (s.raise w e).cmds = s.cmds := rfl
@[simp] theorem raise_schedule (s : State) (w : Word) (e : CommandError) :
    (s.raise w e).schedule = s.schedule := rfl
@[simp] theorem raise_clock (s : State) (w : Word) (e : CommandError) :
    (s.raise w e).clock = s.clock := rfl
@[simp] theorem raise_log (s : State) (w : Word) (e : CommandError) :
    (s.raise w e).log = s.log := rfl

/-! Recovering writes `STATUS` and the record and nothing else (R123). -/

@[simp] theorem recover_pk (s : State) (m : BitVec 3) :
    (s.recover m).pk = s.pk := rfl
@[simp] theorem recover_up (s : State) (m : BitVec 3) :
    (s.recover m).up = s.up := rfl
@[simp] theorem recover_fi (s : State) (m : BitVec 3) :
    (s.recover m).fi = s.fi := rfl
@[simp] theorem recover_sc (s : State) (m : BitVec 3) :
    (s.recover m).sc = s.sc := rfl
@[simp] theorem recover_status (s : State) (m : BitVec 3) :
    (s.recover m).status = clearStatus s.status m := rfl
@[simp] theorem recover_irqEn (s : State) (m : BitVec 3) :
    (s.recover m).irqEn = s.irqEn := rfl
@[simp] theorem recover_errCode (s : State) (m : BitVec 3) :
    (s.recover m).errCode = if m.getLsbD 0 then 0 else s.errCode := rfl
@[simp] theorem recover_errCmd (s : State) (m : BitVec 3) :
    (s.recover m).errCmd = if m.getLsbD 0 then 0 else s.errCmd := rfl
@[simp] theorem recover_now (s : State) (m : BitVec 3) :
    (s.recover m).now = s.now := rfl
@[simp] theorem recover_rsp (s : State) (m : BitVec 3) :
    (s.recover m).rsp = s.rsp := rfl
@[simp] theorem recover_sink (s : State) (m : BitVec 3) :
    (s.recover m).sink = s.sink := rfl
@[simp] theorem recover_source (s : State) (m : BitVec 3) :
    (s.recover m).source = s.source := rfl
@[simp] theorem recover_cmds (s : State) (m : BitVec 3) :
    (s.recover m).cmds = s.cmds := rfl
@[simp] theorem recover_schedule (s : State) (m : BitVec 3) :
    (s.recover m).schedule = s.schedule := rfl
@[simp] theorem recover_clock (s : State) (m : BitVec 3) :
    (s.recover m).clock = s.clock := rfl
@[simp] theorem recover_log (s : State) (m : BitVec 3) :
    (s.recover m).log = s.log := rfl

/-! The reset edge: R54 for the core; the streams and the queue keep their contents (R260). -/

@[simp] theorem resetEdge_pk (s : State) :
    (s.resetEdge).pk = Packer.reset := rfl
@[simp] theorem resetEdge_up (s : State) :
    (s.resetEdge).up = Unpacker.reset := rfl
@[simp] theorem resetEdge_fi (s : State) :
    (s.resetEdge).fi = FrameIndexer.reset := rfl
@[simp] theorem resetEdge_sc (s : State) :
    (s.resetEdge).sc = Scheduler.reset := rfl
@[simp] theorem resetEdge_status (s : State) :
    (s.resetEdge).status = 0 := rfl
@[simp] theorem resetEdge_irqEn (s : State) :
    (s.resetEdge).irqEn = 0 := rfl
@[simp] theorem resetEdge_errCode (s : State) :
    (s.resetEdge).errCode = 0 := rfl
@[simp] theorem resetEdge_errCmd (s : State) :
    (s.resetEdge).errCmd = 0 := rfl
@[simp] theorem resetEdge_now (s : State) :
    (s.resetEdge).now = 0 := rfl
@[simp] theorem resetEdge_rsp (s : State) :
    (s.resetEdge).rsp = ResponseBuffer.reset := rfl
@[simp] theorem resetEdge_sink (s : State) :
    (s.resetEdge).sink = s.sink := rfl
@[simp] theorem resetEdge_source (s : State) :
    (s.resetEdge).source = s.source := rfl
@[simp] theorem resetEdge_cmds (s : State) :
    (s.resetEdge).cmds = s.cmds := rfl
@[simp] theorem resetEdge_schedule (s : State) :
    (s.resetEdge).schedule = s.schedule.tail := rfl
@[simp] theorem resetEdge_clock (s : State) :
    (s.resetEdge).clock = s.clock + 1 := rfl
@[simp] theorem resetEdge_log (s : State) :
    (s.resetEdge).log = RunLog.start := rfl

/-! The closing edge (R264, R265): what it adds to the state `t` the command left. -/

@[simp] theorem closeCycle_pk (s t : State) :
    (s.closeCycle t).pk = { t.pk with outV := if s.boTaken then false else t.pk.outV } := rfl
@[simp] theorem closeCycle_up (s t : State) :
    (s.closeCycle t).up = t.up := rfl
@[simp] theorem closeCycle_fi (s t : State) :
    (s.closeCycle t).fi = t.fi := rfl
@[simp] theorem closeCycle_sc (s t : State) :
    (s.closeCycle t).sc = s.mergeSched t := rfl
@[simp] theorem closeCycle_status (s t : State) :
    (s.closeCycle t).status = setStatus t.status s.schedStep.set5 := rfl
@[simp] theorem closeCycle_irqEn (s t : State) :
    (s.closeCycle t).irqEn = t.irqEn := rfl
@[simp] theorem closeCycle_errCode (s t : State) :
    (s.closeCycle t).errCode = t.errCode := rfl
@[simp] theorem closeCycle_errCmd (s t : State) :
    (s.closeCycle t).errCmd = t.errCmd := rfl
@[simp] theorem closeCycle_now (s t : State) :
    (s.closeCycle t).now = s.now + zext32 (bit s.inputs.tick) := rfl
@[simp] theorem closeCycle_rsp (s t : State) :
    (s.closeCycle t).rsp = { t.rsp with v := if s.rspTaken then false else t.rsp.v } := rfl
@[simp] theorem closeCycle_sink (s t : State) :
    (s.closeCycle t).sink = if s.boTaken then s.sink ++ [s.boData] else s.sink := rfl
@[simp] theorem closeCycle_source (s t : State) :
    (s.closeCycle t).source = t.source := rfl
@[simp] theorem closeCycle_cmds (s t : State) :
    (s.closeCycle t).cmds = if s.accepted.isSome then s.cmds.tail else s.cmds := rfl
@[simp] theorem closeCycle_schedule (s t : State) :
    (s.closeCycle t).schedule = s.schedule.tail := rfl
@[simp] theorem closeCycle_clock (s t : State) :
    (s.closeCycle t).clock = s.clock + 1 := rfl
@[simp] theorem closeCycle_log (s t : State) :
    (s.closeCycle t).log = s.nextLog := rfl

/-! Settling: the response and the output byte are taken, and nothing else changes (R25, R26). -/

@[simp] theorem settle_pk (s : State) :
    (s.settle).pk = { s.pk with outV := false } := rfl
@[simp] theorem settle_up (s : State) :
    (s.settle).up = s.up := rfl
@[simp] theorem settle_fi (s : State) :
    (s.settle).fi = s.fi := rfl
@[simp] theorem settle_sc (s : State) :
    (s.settle).sc = s.sc := rfl
@[simp] theorem settle_status (s : State) :
    (s.settle).status = s.status := rfl
@[simp] theorem settle_irqEn (s : State) :
    (s.settle).irqEn = s.irqEn := rfl
@[simp] theorem settle_errCode (s : State) :
    (s.settle).errCode = s.errCode := rfl
@[simp] theorem settle_errCmd (s : State) :
    (s.settle).errCmd = s.errCmd := rfl
@[simp] theorem settle_now (s : State) :
    (s.settle).now = s.now := rfl
@[simp] theorem settle_rsp (s : State) :
    (s.settle).rsp = { s.rsp with v := false } := rfl
@[simp] theorem settle_sink (s : State) :
    (s.settle).sink = if s.pk.outV then s.sink ++ [s.pk.outbuf] else s.sink := rfl
@[simp] theorem settle_source (s : State) :
    (s.settle).source = s.source := rfl
@[simp] theorem settle_cmds (s : State) :
    (s.settle).cmds = s.cmds := rfl
@[simp] theorem settle_schedule (s : State) :
    (s.settle).schedule = s.schedule := rfl
@[simp] theorem settle_clock (s : State) :
    (s.settle).clock = s.clock := rfl
@[simp] theorem settle_log (s : State) :
    (s.settle).log = s.log := rfl

/-! Replacing `pk` changes nothing else. -/

@[simp] theorem withPk_pk (s : State) (k : Packer) :
    (s.withPk k).pk = k := rfl
@[simp] theorem withPk_up (s : State) (k : Packer) :
    (s.withPk k).up = s.up := rfl
@[simp] theorem withPk_fi (s : State) (k : Packer) :
    (s.withPk k).fi = s.fi := rfl
@[simp] theorem withPk_sc (s : State) (k : Packer) :
    (s.withPk k).sc = s.sc := rfl
@[simp] theorem withPk_status (s : State) (k : Packer) :
    (s.withPk k).status = s.status := rfl
@[simp] theorem withPk_irqEn (s : State) (k : Packer) :
    (s.withPk k).irqEn = s.irqEn := rfl
@[simp] theorem withPk_errCode (s : State) (k : Packer) :
    (s.withPk k).errCode = s.errCode := rfl
@[simp] theorem withPk_errCmd (s : State) (k : Packer) :
    (s.withPk k).errCmd = s.errCmd := rfl
@[simp] theorem withPk_now (s : State) (k : Packer) :
    (s.withPk k).now = s.now := rfl
@[simp] theorem withPk_rsp (s : State) (k : Packer) :
    (s.withPk k).rsp = s.rsp := rfl
@[simp] theorem withPk_sink (s : State) (k : Packer) :
    (s.withPk k).sink = s.sink := rfl
@[simp] theorem withPk_source (s : State) (k : Packer) :
    (s.withPk k).source = s.source := rfl
@[simp] theorem withPk_cmds (s : State) (k : Packer) :
    (s.withPk k).cmds = s.cmds := rfl
@[simp] theorem withPk_schedule (s : State) (k : Packer) :
    (s.withPk k).schedule = s.schedule := rfl
@[simp] theorem withPk_clock (s : State) (k : Packer) :
    (s.withPk k).clock = s.clock := rfl
@[simp] theorem withPk_log (s : State) (k : Packer) :
    (s.withPk k).log = s.log := rfl

/-! Replacing `up` changes nothing else. -/

@[simp] theorem withUp_pk (s : State) (u : Unpacker) :
    (s.withUp u).pk = s.pk := rfl
@[simp] theorem withUp_up (s : State) (u : Unpacker) :
    (s.withUp u).up = u := rfl
@[simp] theorem withUp_fi (s : State) (u : Unpacker) :
    (s.withUp u).fi = s.fi := rfl
@[simp] theorem withUp_sc (s : State) (u : Unpacker) :
    (s.withUp u).sc = s.sc := rfl
@[simp] theorem withUp_status (s : State) (u : Unpacker) :
    (s.withUp u).status = s.status := rfl
@[simp] theorem withUp_irqEn (s : State) (u : Unpacker) :
    (s.withUp u).irqEn = s.irqEn := rfl
@[simp] theorem withUp_errCode (s : State) (u : Unpacker) :
    (s.withUp u).errCode = s.errCode := rfl
@[simp] theorem withUp_errCmd (s : State) (u : Unpacker) :
    (s.withUp u).errCmd = s.errCmd := rfl
@[simp] theorem withUp_now (s : State) (u : Unpacker) :
    (s.withUp u).now = s.now := rfl
@[simp] theorem withUp_rsp (s : State) (u : Unpacker) :
    (s.withUp u).rsp = s.rsp := rfl
@[simp] theorem withUp_sink (s : State) (u : Unpacker) :
    (s.withUp u).sink = s.sink := rfl
@[simp] theorem withUp_source (s : State) (u : Unpacker) :
    (s.withUp u).source = s.source := rfl
@[simp] theorem withUp_cmds (s : State) (u : Unpacker) :
    (s.withUp u).cmds = s.cmds := rfl
@[simp] theorem withUp_schedule (s : State) (u : Unpacker) :
    (s.withUp u).schedule = s.schedule := rfl
@[simp] theorem withUp_clock (s : State) (u : Unpacker) :
    (s.withUp u).clock = s.clock := rfl
@[simp] theorem withUp_log (s : State) (u : Unpacker) :
    (s.withUp u).log = s.log := rfl

/-! Replacing `fi` changes nothing else. -/

@[simp] theorem withFi_pk (s : State) (f : FrameIndexer) :
    (s.withFi f).pk = s.pk := rfl
@[simp] theorem withFi_up (s : State) (f : FrameIndexer) :
    (s.withFi f).up = s.up := rfl
@[simp] theorem withFi_fi (s : State) (f : FrameIndexer) :
    (s.withFi f).fi = f := rfl
@[simp] theorem withFi_sc (s : State) (f : FrameIndexer) :
    (s.withFi f).sc = s.sc := rfl
@[simp] theorem withFi_status (s : State) (f : FrameIndexer) :
    (s.withFi f).status = s.status := rfl
@[simp] theorem withFi_irqEn (s : State) (f : FrameIndexer) :
    (s.withFi f).irqEn = s.irqEn := rfl
@[simp] theorem withFi_errCode (s : State) (f : FrameIndexer) :
    (s.withFi f).errCode = s.errCode := rfl
@[simp] theorem withFi_errCmd (s : State) (f : FrameIndexer) :
    (s.withFi f).errCmd = s.errCmd := rfl
@[simp] theorem withFi_now (s : State) (f : FrameIndexer) :
    (s.withFi f).now = s.now := rfl
@[simp] theorem withFi_rsp (s : State) (f : FrameIndexer) :
    (s.withFi f).rsp = s.rsp := rfl
@[simp] theorem withFi_sink (s : State) (f : FrameIndexer) :
    (s.withFi f).sink = s.sink := rfl
@[simp] theorem withFi_source (s : State) (f : FrameIndexer) :
    (s.withFi f).source = s.source := rfl
@[simp] theorem withFi_cmds (s : State) (f : FrameIndexer) :
    (s.withFi f).cmds = s.cmds := rfl
@[simp] theorem withFi_schedule (s : State) (f : FrameIndexer) :
    (s.withFi f).schedule = s.schedule := rfl
@[simp] theorem withFi_clock (s : State) (f : FrameIndexer) :
    (s.withFi f).clock = s.clock := rfl
@[simp] theorem withFi_log (s : State) (f : FrameIndexer) :
    (s.withFi f).log = s.log := rfl

/-! Replacing `sc` changes nothing else. -/

@[simp] theorem withSc_pk (s : State) (c : Scheduler) :
    (s.withSc c).pk = s.pk := rfl
@[simp] theorem withSc_up (s : State) (c : Scheduler) :
    (s.withSc c).up = s.up := rfl
@[simp] theorem withSc_fi (s : State) (c : Scheduler) :
    (s.withSc c).fi = s.fi := rfl
@[simp] theorem withSc_sc (s : State) (c : Scheduler) :
    (s.withSc c).sc = c := rfl
@[simp] theorem withSc_status (s : State) (c : Scheduler) :
    (s.withSc c).status = s.status := rfl
@[simp] theorem withSc_irqEn (s : State) (c : Scheduler) :
    (s.withSc c).irqEn = s.irqEn := rfl
@[simp] theorem withSc_errCode (s : State) (c : Scheduler) :
    (s.withSc c).errCode = s.errCode := rfl
@[simp] theorem withSc_errCmd (s : State) (c : Scheduler) :
    (s.withSc c).errCmd = s.errCmd := rfl
@[simp] theorem withSc_now (s : State) (c : Scheduler) :
    (s.withSc c).now = s.now := rfl
@[simp] theorem withSc_rsp (s : State) (c : Scheduler) :
    (s.withSc c).rsp = s.rsp := rfl
@[simp] theorem withSc_sink (s : State) (c : Scheduler) :
    (s.withSc c).sink = s.sink := rfl
@[simp] theorem withSc_source (s : State) (c : Scheduler) :
    (s.withSc c).source = s.source := rfl
@[simp] theorem withSc_cmds (s : State) (c : Scheduler) :
    (s.withSc c).cmds = s.cmds := rfl
@[simp] theorem withSc_schedule (s : State) (c : Scheduler) :
    (s.withSc c).schedule = s.schedule := rfl
@[simp] theorem withSc_clock (s : State) (c : Scheduler) :
    (s.withSc c).clock = s.clock := rfl
@[simp] theorem withSc_log (s : State) (c : Scheduler) :
    (s.withSc c).log = s.log := rfl

/-! Replacing `source` changes nothing else. -/

@[simp] theorem withSource_pk (s : State) (r : List Byte) :
    (s.withSource r).pk = s.pk := rfl
@[simp] theorem withSource_up (s : State) (r : List Byte) :
    (s.withSource r).up = s.up := rfl
@[simp] theorem withSource_fi (s : State) (r : List Byte) :
    (s.withSource r).fi = s.fi := rfl
@[simp] theorem withSource_sc (s : State) (r : List Byte) :
    (s.withSource r).sc = s.sc := rfl
@[simp] theorem withSource_status (s : State) (r : List Byte) :
    (s.withSource r).status = s.status := rfl
@[simp] theorem withSource_irqEn (s : State) (r : List Byte) :
    (s.withSource r).irqEn = s.irqEn := rfl
@[simp] theorem withSource_errCode (s : State) (r : List Byte) :
    (s.withSource r).errCode = s.errCode := rfl
@[simp] theorem withSource_errCmd (s : State) (r : List Byte) :
    (s.withSource r).errCmd = s.errCmd := rfl
@[simp] theorem withSource_now (s : State) (r : List Byte) :
    (s.withSource r).now = s.now := rfl
@[simp] theorem withSource_rsp (s : State) (r : List Byte) :
    (s.withSource r).rsp = s.rsp := rfl
@[simp] theorem withSource_sink (s : State) (r : List Byte) :
    (s.withSource r).sink = s.sink := rfl
@[simp] theorem withSource_source (s : State) (r : List Byte) :
    (s.withSource r).source = r := rfl
@[simp] theorem withSource_cmds (s : State) (r : List Byte) :
    (s.withSource r).cmds = s.cmds := rfl
@[simp] theorem withSource_schedule (s : State) (r : List Byte) :
    (s.withSource r).schedule = s.schedule := rfl
@[simp] theorem withSource_clock (s : State) (r : List Byte) :
    (s.withSource r).clock = s.clock := rfl
@[simp] theorem withSource_log (s : State) (r : List Byte) :
    (s.withSource r).log = s.log := rfl

end Sys2Proof.Machine.State
end

