-- ==== Sys2Proof/Laws/Encoding.lean ====
section
/-!
SUPPORT. The opcode of each command's word (30_encoding.md R91, R99), so that the hold of a command is read without its word.
-/

namespace Sys2Proof

@[simp] theorem opcode_nop : opcodeOf (encode .nop) = 0x00 := rfl
@[simp] theorem opcode_rd (reg : BitVec 6) : opcodeOf (encode (.rd reg)) = 0x01 := by
  ext k hk; simp [encode, opcodeOf, field]; interval_cases k <;> simp
@[simp] theorem opcode_wr (h : BitVec 1) (reg : BitVec 6) (imm : BitVec 16) :
    opcodeOf (encode (.wr h reg imm)) = 0x02 := by
  ext k hk; simp [encode, opcodeOf, field]; interval_cases k <;> simp
@[simp] theorem opcode_pkBit (p : BitVec 1) : opcodeOf (encode (.pkBit p)) = 0x08 := by
  ext k hk; simp [encode, opcodeOf, field]; interval_cases k <;> simp
@[simp] theorem opcode_pkBits (n : BitVec 4) (d : BitVec 8) : opcodeOf (encode (.pkBits n d)) = 0x09 := by
  ext k hk; simp [encode, opcodeOf, field]; interval_cases k <;> simp
@[simp] theorem opcode_pkFlush : opcodeOf (encode .pkFlush) = 0x0A := rfl
@[simp] theorem opcode_pkClr : opcodeOf (encode .pkClr) = 0x0B := rfl
@[simp] theorem opcode_upBit : opcodeOf (encode .upBit) = 0x10 := rfl
@[simp] theorem opcode_upClr : opcodeOf (encode .upClr) = 0x11 := rfl
@[simp] theorem opcode_fiCfg (a b : BitVec 13) : opcodeOf (encode (.fiCfg a b)) = 0x18 := by
  ext k hk; simp [encode, opcodeOf, field]; interval_cases k <;> simp
@[simp] theorem opcode_fiAddr (a b : BitVec 13) : opcodeOf (encode (.fiAddr a b)) = 0x19 := by
  ext k hk; simp [encode, opcodeOf, field]; interval_cases k <;> simp
@[simp] theorem opcode_fiSplit : opcodeOf (encode .fiSplit) = 0x1A := rfl
@[simp] theorem opcode_fiCount : opcodeOf (encode .fiCount) = 0x1B := rfl
@[simp] theorem opcode_scStart : opcodeOf (encode .scStart) = 0x20 := rfl

end Sys2Proof

namespace Sys2Proof.Machine

/-- A command that is neither a packer command nor `UP_BIT` is held by the response alone (R24). -/
theorem held_common (s : State) {op : BitVec 6} (h : isPackerOpcode op = false) (h' : (op == 0x10) = false) :
    s.held op = s.rsp.v := by simp only [State.held, h, h', Bool.false_and, Bool.or_false]

/-- A packer command is held by the response or by a full output buffer (R24). -/
theorem held_packer (s : State) {op : BitVec 6} (h : isPackerOpcode op = true) (h' : (op == 0x10) = false) :
    s.held op = (s.rsp.v || s.pk.outV) := by
  simp only [State.held, h, h', Bool.true_and, Bool.false_and, Bool.or_false]

@[simp] theorem held_nop (s : State) : s.held 0x00#6 = s.rsp.v := held_common s rfl rfl
@[simp] theorem held_rd (s : State) : s.held 0x01#6 = s.rsp.v := held_common s rfl rfl
@[simp] theorem held_wr (s : State) : s.held 0x02#6 = s.rsp.v := held_common s rfl rfl
@[simp] theorem held_pkBit (s : State) : s.held 0x08#6 = (s.rsp.v || s.pk.outV) := held_packer s rfl rfl
@[simp] theorem held_pkBits (s : State) : s.held 0x09#6 = (s.rsp.v || s.pk.outV) := held_packer s rfl rfl
@[simp] theorem held_pkFlush (s : State) : s.held 0x0A#6 = (s.rsp.v || s.pk.outV) := held_packer s rfl rfl
@[simp] theorem held_pkClr (s : State) : s.held 0x0B#6 = (s.rsp.v || s.pk.outV) := held_packer s rfl rfl
@[simp] theorem held_upBit (s : State) : s.held 0x10#6 = (s.rsp.v || (s.up.uidx == 8 && !s.biValid)) := by
  simp [State.held, isPackerOpcode]
@[simp] theorem held_upClr (s : State) : s.held 0x11#6 = s.rsp.v := held_common s rfl rfl
@[simp] theorem held_fiCfg (s : State) : s.held 0x18#6 = s.rsp.v := held_common s rfl rfl
@[simp] theorem held_fiAddr (s : State) : s.held 0x19#6 = s.rsp.v := held_common s rfl rfl
@[simp] theorem held_fiSplit (s : State) : s.held 0x1A#6 = s.rsp.v := held_common s rfl rfl
@[simp] theorem held_fiCount (s : State) : s.held 0x1B#6 = s.rsp.v := held_common s rfl rfl
@[simp] theorem held_scStart (s : State) : s.held 0x20#6 = s.rsp.v := held_common s rfl rfl

end Sys2Proof.Machine
end

