-- ==== Sys2Proof/Laws/Ops.lean ====
section
/-!
SUPPORT. What each shared operation can do, said once: the command frame, the scheduler step, and the cycle.
-/

namespace Sys2Proof.Machine

theorem runCommand_held {s : State} {i : Instr} (r : Except CommandError (State × Word))
    (h : s.held (opcodeOf (encode i)) = true) : s.runCommand i r = .next s := by
  simp [State.runCommand, h]

theorem runCommand_ok {s : State} {i : Instr} (t : State) (d : Word)
    (h : s.held (opcodeOf (encode i)) = false) : s.runCommand i (.ok (t, d)) = .next (t.respond false d) := by
  simp [State.runCommand, h]

theorem runCommand_error {s : State} {i : Instr} (e : CommandError)
    (h : s.held (opcodeOf (encode i)) = false) : s.runCommand i (.error e) = .next (s.raise (encode i) e) := by
  simp [State.runCommand, h]

/-- Everything the command frame can answer (R233): the command is held, completes, or raises its error. -/
theorem runCommand_cases {s t : State} {i : Instr} {r : Except CommandError (State × Word)}
    (h : s.runCommand i r = .next t) :
    (s.held (opcodeOf (encode i)) = true ∧ t = s) ∨
    (s.held (opcodeOf (encode i)) = false ∧ ∃ u d, r = .ok (u, d) ∧ t = u.respond false d) ∨
    (s.held (opcodeOf (encode i)) = false ∧ ∃ e, r = .error e ∧ t = s.raise (encode i) e) := by
  unfold State.runCommand at h
  split at h
  · next hh => cases h; exact .inl ⟨hh, rfl⟩
  · next hh =>
    have hh' : s.held (opcodeOf (encode i)) = false := by simpa using hh
    split at h
    · cases h; exact .inr (.inl ⟨hh', _, _, rfl, rfl⟩)
    · cases h; exact .inr (.inr ⟨hh', _, rfl, rfl⟩)

/-- Everything the branch of `rd_done = 1` can do (R208, R209). -/
theorem rendered_cases (sc : Scheduler) (now : Word) :
    ((sc.interval.toNat : Int) < sc.elapsed now ∧
      sc.rendered now = { sc := { sc with debt := 0, sleep := 0, st := .sleep }, set5 := 0 }) ∨
    (sc.elapsed now - (sc.interval.toNat : Int) < -2 ^ 31 ∧
      sc.rendered now = { sc := sc.enterFault .debtovf, set5 := statusScFault }) ∨
    (-2 ^ 31 ≤ sc.elapsed now - (sc.interval.toNat : Int) ∧ sc.elapsed now ≤ (sc.interval.toNat : Int) ∧
      sc.rendered now =
        { sc := { sc with
            debt := BitVec.ofInt 32 (sc.elapsed now - (sc.interval.toNat : Int))
            sleep := BitVec.ofInt 32 (-(sc.elapsed now - (sc.interval.toNat : Int))), st := .sleep }, set5 := 0 }) := by
  simp only [Scheduler.rendered]
  split
  · next h => exact .inl ⟨h, rfl⟩
  · next h =>
    split
    · next h' => exact .inr (.inl ⟨h', rfl⟩)
    · next h' => exact .inr (.inr ⟨by omega, by omega, rfl⟩)

/-- A scheduler that is stopped takes no step (R219). -/
theorem schedStep_stopped {sc : Scheduler} (h : sc.st.running = false) (now : Word) (i : Inputs) :
    sc.step now i = { sc := sc, set5 := 0 } := by
  unfold Scheduler.step
  split <;> simp_all [SchedState.running]

/-- The step writes neither `SC_INTERVAL` nor `SC_NFRAMES` (R265). -/
theorem schedStep_config (sc : Scheduler) (now : Word) (i : Inputs) :
    (sc.step now i).sc.interval = sc.interval ∧ (sc.step now i).sc.nframes = sc.nframes := by
  unfold Scheduler.step Scheduler.sleepOver Scheduler.enterFault
  rcases rendered_cases sc now with ⟨-, h⟩ | ⟨-, h⟩ | ⟨-, -, h⟩ <;> rw [h] <;>
    (repeat' split) <;> simp [Scheduler.enterFault]

/-- Everything one clock cycle can do: reset, or the closing edge around nothing, an illegal word or a command. -/
theorem step_cases {s t : State} (h : step s = .next t) :
    (s.inputs.rst = true ∧ t = s.resetEdge) ∨
    (s.inputs.rst = false ∧ s.accepted = none ∧ t = s.closeCycle s) ∨
    (s.inputs.rst = false ∧ ∃ w e, s.accepted = some w ∧ decode w = .error e ∧
      t = s.closeCycle (s.raise w .illegal)) ∨
    (s.inputs.rst = false ∧ ∃ w i u, s.accepted = some w ∧ decode w = .ok i ∧ exec i s = .next u ∧
      t = s.closeCycle u) := by
  unfold step at h
  split at h
  · next hr => cases h; exact .inl ⟨hr, rfl⟩
  · next hr =>
    have hr' : s.inputs.rst = false := by simpa using hr
    split at h
    · next ha => cases h; exact .inr (.inl ⟨hr', ha, rfl⟩)
    · next w ha =>
      split at h
      · next e hd => cases h; exact .inr (.inr (.inl ⟨hr', w, e, ha, hd, rfl⟩))
      · next i hd =>
        refine .inr (.inr (.inr ⟨hr', w, i, ?_⟩))
        cases hx : exec i s with
        | next u => rw [hx] at h; cases h; exact ⟨u, ha, hd, rfl, rfl⟩
        | fault r => rw [hx] at h; cases h
        | refused r => rw [hx] at h; cases h

/-- An accepted word was presented and no hold kept it (R23, R24). -/
theorem accepted_cases {s : State} {w : Word} (h : s.accepted = some w) :
    s.inputs.cmdValid = true ∧ s.cmds.head? = some w ∧ s.held (opcodeOf w) = false ∧ s.inputs.rst = false := by
  obtain ⟨hp, hr⟩ := Option.filter_eq_some_iff.mp h
  unfold State.presented at hp
  split at hp
  · next hv =>
    simp only [State.cmdReady, Bool.and_eq_true, Bool.not_eq_eq_eq_not, Bool.not_true] at hr
    exact ⟨hv, hp, hr.2, hr.1⟩
  · cases hp

end Sys2Proof.Machine
end

