-- ==== Sys2Proof/Laws/PerInstr.lean ====
section
/-!
SUPPORT. The per-instruction family `TableWord`: a command's word has the fixed bits that R100's table gives its row
(30_encoding.md R100).
-/

namespace Sys2Proof.Laws.TableWord

/-- `w & mask = match` for the word of the command (R100). -/
def Statement (i : Instr) : Prop := encode i &&& i.mask = i.pattern

theorem nop : Statement .nop := rfl
theorem rd (reg : BitVec 6) : Statement (.rd reg) := by
  ext k hk; simp [encode, Instr.mask, Instr.pattern]; interval_cases k <;> simp
theorem wr (h : BitVec 1) (reg : BitVec 6) (imm : BitVec 16) : Statement (.wr h reg imm) := by
  ext k hk; simp [encode, Instr.mask, Instr.pattern]; interval_cases k <;> simp
theorem pkBit (p : BitVec 1) : Statement (.pkBit p) := by
  ext k hk; simp [encode, Instr.mask, Instr.pattern]; interval_cases k <;> simp
theorem pkBits (n : BitVec 4) (d : BitVec 8) : Statement (.pkBits n d) := by
  ext k hk; simp [encode, Instr.mask, Instr.pattern]; interval_cases k <;> simp
theorem pkFlush : Statement .pkFlush := rfl
theorem pkClr : Statement .pkClr := rfl
theorem upBit : Statement .upBit := rfl
theorem upClr : Statement .upClr := rfl
theorem fiCfg (a b : BitVec 13) : Statement (.fiCfg a b) := by
  ext k hk; simp [encode, Instr.mask, Instr.pattern]; interval_cases k <;> simp
theorem fiAddr (a b : BitVec 13) : Statement (.fiAddr a b) := by
  ext k hk; simp [encode, Instr.mask, Instr.pattern]; interval_cases k <;> simp
theorem fiSplit : Statement .fiSplit := rfl
theorem fiCount : Statement .fiCount := rfl
theorem scStart : Statement .scStart := rfl

end Sys2Proof.Laws.TableWord
end

