-- ==== Sys2Proof/Laws/Runs.lean ====
section
/-!
SUPPORT. How a run ends (70_reset_and_hazards.md R281): each run ends at one boundary, is cut at one edge, or hangs, and only one of
these.
-/

namespace Sys2Proof.Machine

/-- A run ends at one boundary only. -/
theorem runEnds_unique {f : Nat → State} {b n m : Nat} (hn : RunEnds f b n) (hm : RunEnds f b m) : n = m := by
  rcases Nat.lt_trichotomy n m with h | h | h
  · exact absurd hn.2.2.1 (hm.2.2.2 n hn.1 h)
  · exact h
  · exact absurd hm.2.2.1 (hn.2.2.2 m hm.1 h)

/-- A run that ends is not cut. -/
theorem not_runCut_of_runEnds {f : Nat → State} {b n m : Nat} (hn : RunEnds f b n) : ¬ RunCut f b m := by
  intro ⟨hbm, _, hr, hne⟩
  rcases Nat.lt_or_ge m n with h | h
  · exact Bool.noConfusion ((hn.2.1 m hbm h).symm.trans hr)
  · exact hne n hn.1 h hn.2.2.1

/-- A run that ends does not hang. -/
theorem not_hangs_of_runEnds {f : Nat → State} {b n : Nat} (hn : RunEnds f b n) : ¬ Hangs f b :=
  fun h => (h n hn.1).2 hn.2.2.1

/-- A run that is cut does not hang. -/
theorem not_hangs_of_runCut {f : Nat → State} {b n : Nat} (hn : RunCut f b n) : ¬ Hangs f b :=
  fun h => Bool.noConfusion ((h n hn.1).1.symm.trans hn.2.2.1)

/-- A run ends, is cut, or hangs: the first boundary that is an end point or begins a reset cycle decides. -/
theorem runEnds_or_runCut_or_hangs (f : Nat → State) (b : Nat) :
    (∃ n, RunEnds f b n) ∨ (∃ n, RunCut f b n) ∨ Hangs f b := by
  classical
  by_cases h : ∃ n, b ≤ n ∧ (EndPoint f n ∨ (f n).inputs.rst = true)
  · obtain ⟨hb, hn⟩ := Nat.find_spec h
    have before : ∀ m, b ≤ m → m < Nat.find h → ¬ EndPoint f m ∧ (f m).inputs.rst = false := fun m hbm hm => by
      simpa [hbm] using Nat.find_min h hm
    have uncut : Uncut f b (Nat.find h) := fun k hbk hk => (before k hbk hk).2
    by_cases he : EndPoint f (Nat.find h)
    · exact .inl ⟨_, hb, uncut, he, fun m hbm hm => (before m hbm hm).1⟩
    · refine .inr (.inl ⟨_, hb, uncut, hn.resolve_left he, fun m hbm hm => ?_⟩)
      rcases Nat.eq_or_lt_of_le hm with rfl | hm
      · exact he
      · exact (before m hbm hm).1
  · refine .inr (.inr fun n hbn => ?_)
    simpa [not_or, and_comm] using fun hc => h ⟨n, hbn, hc⟩

end Sys2Proof.Machine
end

