-- ==== Sys2Proof/Tests/Slice0.lean ====
section
/-!
SUPPORT. Tests: expected values from the spec's own tables and vectors (30_encoding.md R99, R106, 95_test_vectors.md), the
well-formedness checks, and one witness theorem per obligation that has hypotheses.
-/

open Sys2Proof Sys2Proof.Machine Sys2Proof.Claims

namespace Sys2Proof.Tests

/-! ## Small states -/

/-- The host and the byte source present what they have; no tick. -/
def driven : Inputs := { Inputs.idle with cmdValid := true, biValid := true }

/-- Right after reset, with those inputs in the first cycle. -/
def start : State := { State.reset with schedule := [driven] }

/-- A response waits to be taken. -/
def waiting : State := { start with rsp := { v := true, err := false, data := 0 } }

/-- A byte waits to be taken. -/
def full : State := { start with pk := { Packer.reset with outV := true } }

/-- `cfg(w, h)` of the vectors. -/
def cfg (w h : Nat) (f : FrameIndexer → FrameIndexer := id) : State :=
  { start with fi := f { FrameIndexer.reset with
      width := BitVec.ofNat 13 w, height := BitVec.ofNat 13 h, res := BitVec.ofNat 26 (w * h) } }

/-- The scheduler registers replaced, and the first cycle's inputs given. -/
def sched (sc : Scheduler) (i : Inputs := driven) : State := { start with sc := sc, schedule := [i] }

/-- A scheduler in a state, with 10 ticks a frame and 3 frames. -/
def playing (st : SchedState) : Scheduler := { Scheduler.reset with st := st, interval := 10, nframes := 3 }

/-- A part of the next state. -/
def seen {α : Type} (r : Result) (f : State → α) : Option α :=
  match r with
  | .next t => some (f t)
  | _ => none

/-- The response as the vectors write it. -/
def answer (t : State) : Bool × Bool × Nat := (t.rsp.v, t.rsp.err, t.rsp.data.toNat)

/-! ## Well-formedness (R104): an ill-formed term for each check, refused -/

theorem test_wf_rd : (Written.rd 64).wellFormed = false := by decide
theorem test_wf_wr_half : (Written.wr 2 0 0).wellFormed = false := by decide
theorem test_wf_wr_reg : (Written.wr 0 64 0).wellFormed = false := by decide
theorem test_wf_wr_imm : (Written.wr 0 0 65536).wellFormed = false := by decide
theorem test_wf_pkBit : (Written.pkBit 2).wellFormed = false := by decide
theorem test_wf_pkBits_n : (Written.pkBits 16 0).wellFormed = false := by decide
theorem test_wf_pkBits_d : (Written.pkBits 1 256).wellFormed = false := by decide
theorem test_wf_fiCfg_a : (Written.fiCfg 8192 1).wellFormed = false := by decide
theorem test_wf_fiCfg_b : (Written.fiCfg 1 8192).wellFormed = false := by decide
theorem test_wf_fiAddr_a : (Written.fiAddr 8192 1).wellFormed = false := by decide
theorem test_wf_fiAddr_b : (Written.fiAddr 1 8192).wellFormed = false := by decide
/-- A value that fits its field and is out of range is well formed (R102). -/
theorem test_wf_fits : (Written.pkBits 15 255).toInstr? = some (.pkBits 15 255) := by decide

/-! ## Decoding: words written out from R99's patterns -/

theorem test_decode_nop : decode 0b000000_00000000000000000000000000#32 = .ok .nop := by decide
theorem test_decode_rd : decode 0b000001_0000_100011_0000000000000000#32 = .ok (.rd 0x23) := by decide
theorem test_decode_wr : decode 0b000010_000_1_100001_0000000000000001#32 = .ok (.wr 1 0x21 1) := by decide
theorem test_decode_pkBit : decode 0b001000_0000000000000000000000000_1#32 = .ok (.pkBit 1) := by decide
theorem test_decode_pkBits : decode 0b001001_00000000000000_0100_00001001#32 = .ok (.pkBits 4 9) := by decide
theorem test_decode_pkFlush : decode 0b001010_00000000000000000000000000#32 = .ok .pkFlush := by decide
theorem test_decode_pkClr : decode 0b001011_00000000000000000000000000#32 = .ok .pkClr := by decide
theorem test_decode_upBit : decode 0b010000_00000000000000000000000000#32 = .ok .upBit := by decide
theorem test_decode_upClr : decode 0b010001_00000000000000000000000000#32 = .ok .upClr := by decide
theorem test_decode_fiCfg : decode 0b011000_0000000000010_0000000000011#32 = .ok (.fiCfg 2 3) := by decide
theorem test_decode_fiAddr : decode 0b011001_0000000000001_0000000000000#32 = .ok (.fiAddr 1 0) := by decide
theorem test_decode_fiSplit : decode 0b011010_00000000000000000000000000#32 = .ok .fiSplit := by decide
theorem test_decode_fiCount : decode 0b011011_00000000000000000000000000#32 = .ok .fiCount := by decide
theorem test_decode_scStart : decode 0b100000_00000000000000000000000000#32 = .ok .scStart := by decide
/-- V160, V161: reserved opcodes. -/
theorem test_decode_reserved_opcode :
    decode 0x0C000000#32 = .error .reservedOpcode ∧ decode 0xFC000000#32 = .error .reservedOpcode := by decide
/-- V16, V25, V59: reserved fields. -/
theorem test_decode_reserved_field :
    decode 0x04400000#32 = .error .reservedField ∧ decode 0x08810000#32 = .error .reservedField ∧
    decode 0x24001408#32 = .error .reservedField := by decide
/-- R106. -/
theorem test_encode_examples :
    encode (.wr 0 0x21 10) = 0x0821000A#32 ∧ encode (.fiCfg 8191 8191) = 0x63FFFFFF#32 ∧
    encode (.pkBits 8 0xA5) = 0x240008A5#32 := by decide

/-! ## The assembler: R105 and R106 -/

theorem test_assemble_wr32 : assembleLine "wr32 SC_INTERVAL, 0x10005" = some [0x08210005#32, 0x08610001#32] := by decide
theorem test_assemble_bits : assembleLine "pk.bits 4, 0b1001" = some [0x24000409#32] := by decide
theorem test_assemble_refuses : assembleLine "pk.bits 16, 0" = none := by decide

/-! ## Instructions: vectors of 95_test_vectors.md -/

/-- V1. -/
theorem test_nop : seen (exec .nop start) answer = some (true, false, 0) := by decide
/-- V10. -/
theorem test_rd_pkState :
    seen (exec (.rd 0x08) { start with pk := { acc := 5, cnt := 3, bytes := 0, outV := true, outbuf := 0x9C } }) answer =
      some (true, false, 0x9C010305) := by decide
/-- V13. -/
theorem test_rd_unallocated :
    seen (exec (.rd 0x06) start) (fun t => (answer t, t.status, t.errCode, t.errCmd)) =
      some ((true, true, 3), 1, 3, 0x04060000) := by decide
/-- V32. -/
theorem test_wr_nbytes :
    seen (exec (.wr 1 0x13 1) { start with fi := { FrameIndexer.reset with nbytes := 2, frames := 4 } })
      (fun t => (answer t, t.fi.nbytes, t.fi.frames)) = some ((true, false, 0), 0x00010002, 0) := by decide
/-- V27. -/
theorem test_wr_status :
    seen (exec (.wr 0 0x01 6) { start with status := 7, errCode := 3, errCmd := 0x04060000 })
      (fun t => (t.status, t.errCode, t.errCmd)) = some (1, 3, 0x04060000) := by decide
/-- V41. -/
theorem test_pkBit :
    seen (exec (.pkBit 0) { start with pk := { Packer.reset with acc := 0x4E, cnt := 7 } }) (·.pk) =
      some { acc := 0, cnt := 0, bytes := 1, outV := true, outbuf := 0x9C } := by decide
/-- V45. -/
theorem test_pkBit_held : seen (exec (.pkBit 1) full) id = some full := by decide
/-- V52. -/
theorem test_pkBits :
    seen (exec (.pkBits 8 0xA5) { start with pk := { Packer.reset with acc := 0xA, cnt := 4 } }) (·.pk) =
      some { acc := 5, cnt := 4, bytes := 1, outV := true, outbuf := 0xAA } := by decide
/-- V57. -/
theorem test_pkBits_operand : seen (exec (.pkBits 9 0) start) (fun t => (answer t, t.pk)) =
    some ((true, true, 2), Packer.reset) := by decide
/-- V63. -/
theorem test_pkFlush :
    seen (exec .pkFlush { start with pk := { Packer.reset with acc := 5, cnt := 3 } }) (·.pk) =
      some { acc := 0, cnt := 0, bytes := 1, outV := true, outbuf := 0xA0 } := by decide
/-- V61. -/
theorem test_pkFlush_empty : seen (exec .pkFlush start) (·.pk) = some Packer.reset := by decide
/-- V67. -/
theorem test_pkClr :
    seen (exec .pkClr { start with pk := { Packer.reset with acc := 3, cnt := 2, bytes := 5 } }) (·.pk) =
      some Packer.reset := by decide
/-- V83. -/
theorem test_upBit_new :
    seen (exec .upBit { start with up := { ubyte := 0x9C, uidx := 8, bytes := 1, bits := 8 }, source := [0] })
      (fun t => (answer t, t.up, t.source)) = some ((true, false, 0), { ubyte := 0, uidx := 1, bytes := 2, bits := 9 }, []) := by
  decide
/-- V82. -/
theorem test_upBit_last :
    seen (exec .upBit { start with up := { ubyte := 1, uidx := 7, bytes := 1, bits := 7 } })
      (fun t => (answer t, t.up.uidx, t.up.bits)) = some ((true, false, 1), 8, 8) := by decide
/-- V87. -/
theorem test_upClr :
    seen (exec .upClr { start with up := { ubyte := 0, uidx := 4, bytes := 2, bits := 12 } }) (·.up) =
      some { ubyte := 0, uidx := 8, bytes := 0, bits := 0 } := by decide
/-- V101. -/
theorem test_fiCfg : seen (exec (.fiCfg 8191 8191) start) (fun t => (answer t, t.fi.res)) =
    some ((true, false, 0x03FFC001), 67092481) := by decide
/-- V107. -/
theorem test_fiAddr :
    seen (exec (.fiAddr 1 0) (cfg 2 2 fun f => { f with frm := 1 })) (fun t => (answer t, fiBaddr t.fi.g, fiBsel t.fi.g)) =
      some ((true, false, 6), 0, 1) := by decide
/-- V112. -/
theorem test_fiAddr_range :
    seen (exec (.fiAddr 0 0) (cfg 8191 8191 fun f => { f with frm := 65 })) answer = some (true, true, 5) := by decide
/-- V115. -/
theorem test_fiSplit :
    seen (exec .fiSplit (cfg 3 5 fun f => { f with g := 0xFFFFFFFF })) (fun t => (answer t, t.fi.qf, t.fi.qr, t.fi.qc)) =
      some ((true, false, 0x11111111), 0x11111111, 0, 0) := by decide
/-- V121. -/
theorem test_fiCount :
    seen (exec .fiCount (cfg 1 1 fun f => { f with nbytes := 0x1FFFFFFF })) (fun t => (answer t, t.fi.frames)) =
      some ((true, false, 0xFFFFFFF8), 0xFFFFFFF8) := by decide
/-- V122. -/
theorem test_fiCount_range :
    seen (exec .fiCount (cfg 1 1 fun f => { f with nbytes := 0x20000000 })) answer = some (true, true, 5) := by decide
/-- V141. -/
theorem test_scStart :
    seen (exec .scStart
        { sched { playing .fault with fcode := 8, debt := 0xFFFFFFF9, fidx := 1 } with
          fi := { FrameIndexer.reset with frames := 4 }, status := 4 })
      (fun t => (t.sc, t.status)) = some (playing .waitReady, 4) := by decide
/-- V142. -/
theorem test_scStart_busy :
    seen (exec .scStart (sched { Scheduler.reset with st := .waitReady })) answer = some (true, true, 6) := by decide

/-! ## Cycles -/

/-- S2's frame 1: a render of 15 ticks after a debt of -10 leaves a debt of -5 and a sleep of 5. -/
theorem test_render_done :
    seen (step { sched { playing .render with debt := 0xFFFFFFF6, fstart := 20 } { Inputs.idle with rdDone := true } with
        now := 35 }) (fun t => (t.sc.st, t.sc.debt, t.sc.sleep)) = some (.sleep, 0xFFFFFFFB, 5) := by decide
/-- S7: the debt would be below `-2^31`. -/
theorem test_debt_overflow :
    seen (step { sched { playing .render with interval := 0x80000002 } { Inputs.idle with rdDone := true } with now := 1 })
      (fun t => (t.sc.st, t.sc.fcode, t.sc.debt, t.status)) = some (.fault, 9, 0, 4) := by decide
/-- T3: the scheduler sets `SC_DONE` at the edge at which a `WR` clears it. -/
theorem test_set_wins :
    seen (step { sched { playing .sleep with fidx := 2 } with cmds := [0x08010002] })
      (fun t => (t.sc.st, t.status, t.cmds, answer t)) = some (.done, 2, [], true, false, 0) := by decide
/-- V86: an illegal `UP_BIT` word does not consume the presented byte. -/
theorem test_illegal_keeps_byte :
    seen (step { start with cmds := [0x40000001], source := [0x80] }) (fun t => (answer t, t.source, t.errCode)) =
      some ((true, true, 1), [0x80], 1) := by decide
/-- The first instruction after reset, as the host places one. -/
theorem test_withFetchWord :
    seen (step (State.reset.withFetchWord 32 0x60004002)) (fun t => (answer t, t.fi.res)) =
      some ((true, false, 4), 4) := by decide

/-! ## Witnesses: for every obligation with hypotheses, states and operands that meet them, clause by clause

`waiting` meets the clauses on a waiting response, `full` those on a waiting byte, `start` those on neither. -/

theorem witness_response_empty : start.rsp.v = false ∧ start.pk.outV = false := by decide
theorem witness_response_waiting : waiting.rsp.v = true := by decide
theorem witness_byte_waiting : full.rsp.v = false ∧ full.pk.outV = true := by decide

theorem witness_LegalWordsMatchTable :
    (0x64000000, 0xFC000000) ∈ matchTable ∧ 0x67FFDFFE#32 &&& BitVec.ofNat 32 0xFC000000 = BitVec.ofNat 32 0x64000000 ∧
    decode 0x67FFDFFE#32 = .ok (.fiAddr 8190 8190) := by decide
theorem witness_EncodeOfDecode : decode 0x63FFFFFF#32 = .ok (.fiCfg 8191 8191) := by decide

theorem witness_RdRespondsRegister_allocated :
    start.rsp.v = false ∧ ((0x00#6).toNat, 0x42564330) ∈ registerTable start ∧ ((0x26#6).toNat, 0) ∈ registerTable start := by
  decide
theorem witness_RdRespondsRegister_unallocated :
    Unallocated (0x06#6).toNat ∧ Unallocated (0x0F#6).toNat ∧ Unallocated (0x1C#6).toNat ∧ Unallocated (0x1F#6).toNat ∧
    Unallocated (0x27#6).toNat ∧ Unallocated (0x3F#6).toNat := by unfold Unallocated; decide

theorem witness_WrChecksInOrder_reg :
    start.rsp.v = false ∧ ¬ Writable (0x00#6).toNat ∧ ¬ Writable (0x23#6).toNat ∧ ¬ Writable (0x3F#6).toNat := by
  unfold Writable; decide
theorem witness_WrChecksInOrder_busy :
    (sched (playing .waitReady)).rsp.v = false ∧ (0x21#6).toNat = 0x21 ∧ (0x22#6).toNat = 0x22 ∧
    Running (sched (playing .waitReady)) ∧ Running (sched (playing .sleep)) := by unfold Running; decide
theorem witness_WrSchedulerConfig :
    start.rsp.v = false ∧ ¬ Running start ∧ ¬ Running (sched (playing .done)) ∧ ¬ Running (sched (playing .fault)) ∧
    (sched (playing .render)).rsp.v = false ∧ Running (sched (playing .render)) := by
  unfold Running; decide
theorem witness_WrStatusClearsBits :
    let s := sched { playing .sleep with fidx := 2 }
    let u := sched (playing .render) { Inputs.idle with rdErr := true }
    s.inputs.rst = false ∧ (∃ t, step s = .next t) ∧ DoneEvent s ∧ u.inputs.rst = false ∧ (∃ t, step u = .next t) ∧ FaultEvent u :=
  ⟨rfl, ⟨_, rfl⟩, ⟨rfl, rfl, rfl⟩, rfl, ⟨_, rfl⟩, rfl, .inl rfl⟩
theorem witness_WrIrqEnWritesEnables :
    let s : State := { start with cmds := [0x0802FFFF] }
    Presents s (BitVec.ofNat 32 (0x08020000 + (0xFFFF#16).toNat)) [] ∧
    Ready s (BitVec.ofNat 32 (0x08020000 + (0xFFFF#16).toNat)) ∧ ∃ t, step s = .next t :=
  ⟨by unfold Presents; decide, by unfold Ready; decide, _, rfl⟩

/-- `ACC` and `CNT` given. -/
def packing (acc : Byte) (cnt : BitVec 3) : State := { start with pk := { Packer.reset with acc := acc, cnt := cnt } }

theorem witness_PkBitPacksOnePixel_within :
    (packing 0 6).rsp.v = false ∧ (packing 0 6).pk.outV = false ∧ (packing 0 6).pk.cnt.toNat + 1 ≠ 8 := by decide
theorem witness_PkBitPacksOnePixel_emits :
    (packing 0 7).rsp.v = false ∧ (packing 0 7).pk.outV = false ∧ (packing 0 7).pk.cnt.toNat + 1 = 8 := by decide
theorem witness_PkBitsPacksGroup_operand : (0#4).toNat = 0 ∧ 8 < (9#4).toNat := by decide
theorem witness_PkBitsPacksGroup_within :
    start.rsp.v = false ∧ start.pk.outV = false ∧ 1 ≤ (7#4).toNat ∧ (7#4).toNat ≤ 8 ∧
    start.accBounded ∧ start.pk.cnt.toNat + (7#4).toNat < 8 := by decide
theorem witness_PkBitsPacksGroup_emits :
    (packing 0x7F 7).rsp.v = false ∧ (packing 0x7F 7).pk.outV = false ∧ 1 ≤ (1#4).toNat ∧ (1#4).toNat ≤ 8 ∧
    (packing 0x7F 7).accBounded ∧ 8 ≤ (packing 0x7F 7).pk.cnt.toNat + (1#4).toNat := by
  decide
theorem witness_PkBitsEqualsPkBitSequence :
    start.rsp.v = false ∧ start.pk.outV = false ∧ start.accBounded ∧ 1 ≤ (8#4).toNat ∧ (8#4).toNat ≤ 8 := by decide
theorem witness_PkFlushPadsPartialByte :
    start.rsp.v = false ∧ start.pk.outV = false ∧ start.pk.cnt.toNat = 0 ∧
    (packing 1 1).rsp.v = false ∧ (packing 1 1).pk.outV = false ∧ (packing 1 1).pk.cnt.toNat ≠ 0 := by decide
/-- V69's commands: ten pixels, alone and in groups. -/
def tenPixels : List Instr := [.pkBit 1, .pkBits 6 0b101001, .pkBits 3 0b011]

theorem witness_PackedStreamBytes :
    start.rsp.v = false ∧ start.pk.outV = false ∧ start.pk.acc = 0 ∧ start.pk.cnt = 0 ∧
    [true, true, false, true, false, false, true, false, true, true] = tenPixels.flatMap carried := by decide
theorem witness_PackedStreamBytes_carries : ∀ i ∈ tenPixels, CarriesPixels i := by
  simp [tenPixels, CarriesPixels]
/-- V69. -/
theorem test_packed_stream : (feed (tenPixels ++ [.pkFlush]) start).map (·.1.sink) = some [0xD2, 0xC0] := by decide

/-- The byte source holds `bs`. -/
def supplied (bs : List Byte) : State := { start with source := bs }

theorem witness_UpBitProducesNextBit_held : start.up.uidx = 8 ∧ start.source = [] := by decide
theorem witness_UpBitProducesNextBit_new :
    (supplied [0x9C]).rsp.v = false ∧ (supplied [0x9C]).up.uidx = 8 ∧ (supplied [0x9C]).inputs.biValid = true ∧
    (supplied [0x9C]).source = 0x9C :: [] := by decide
theorem witness_UpBitProducesNextBit_same :
    let s (k : Fin 9) : State := { start with up := { Unpacker.reset with uidx := k } }
    (s 0).rsp.v = false ∧ (s 0).up.uidx.val = (0 : Fin 8).val ∧ (s 7).rsp.v = false ∧ (s 7).up.uidx.val = (7 : Fin 8).val := by
  decide
theorem witness_UnpackedStreamBits :
    (supplied [0x9C, 0]).rsp.v = false ∧ (supplied [0x9C, 0]).up.uidx = 8 ∧ (supplied [0x9C, 0]).inputs.biValid = true ∧
    (supplied [0x9C, 0]).source = [0x9C] ++ [0] := by decide
theorem witness_PackThenUnpackRoundTrip :
    start.rsp.v = false ∧ start.pk.outV = false ∧ start.pk.acc = 0 ∧ start.pk.cnt = 0 ∧
    start.up.uidx = 8 ∧ start.inputs.biValid = true := by decide

theorem witness_FiCfgSetsDimensions :
    start.rsp.v = false ∧ (0#13).toNat = 0 ∧ (1#13).toNat ≠ 0 ∧ (8191#13).toNat ≠ 0 := by decide
theorem witness_FiAddrComputesIndex_nocfg : start.rsp.v = false ∧ start.fi.res.toNat = 0 := by decide
theorem witness_FiAddrComputesIndex_range :
    let s := cfg 8191 8191 fun f => { f with frm := 65 }
    (cfg 2 2).rsp.v = false ∧ (cfg 2 2).fi.res.toNat ≠ 0 ∧ (cfg 2 2).fi.height.toNat ≤ (2#13).toNat ∧
    (cfg 2 2).fi.width.toNat ≤ (2#13).toNat ∧ s.rsp.v = false ∧ s.fi.res.toNat ≠ 0 ∧
    2 ^ 32 ≤ s.fi.frm.toNat * s.fi.res.toNat + (0#13).toNat * s.fi.width.toNat + (0#13).toNat := by decide
/-- V113, the largest index. -/
theorem witness_FiAddrComputesIndex :
    let s := cfg 4 4 fun f => { f with frm := 0x0FFFFFFF }
    s.rsp.v = false ∧ s.fi.res.toNat ≠ 0 ∧ (3#13).toNat < s.fi.height.toNat ∧ (3#13).toNat < s.fi.width.toNat ∧
    s.fi.frm.toNat * s.fi.res.toNat + (3#13).toNat * s.fi.width.toNat + (3#13).toNat = 2 ^ 32 - 1 := by decide
theorem witness_FiSplitSplitsIndex :
    start.rsp.v = false ∧ start.fi.res.toNat = 0 ∧
    (cfg 1 1).rsp.v = false ∧ (cfg 1 1).resConfigured ∧ (cfg 1 1).fi.res.toNat ≠ 0 := by decide
theorem witness_DerivedRegistersLocatePixel :
    let s (g : Word) := cfg 2 2 fun f => { f with g := g }
    [0x9C#8, 0x01#8][((s 0).readReg .fiBaddr).toNat]? = some 0x9C ∧
    [0x9C#8, 0x01#8][((s 15).readReg .fiBaddr).toNat]? = some 0x01 := by decide
theorem witness_FiCountCountsFullFrames_nocfg : start.rsp.v = false ∧ start.fi.res.toNat = 0 := by decide
/-- V119 and V122. -/
theorem witness_FiCountCountsFullFrames_errors :
    let s := cfg 3 3 fun f => { f with nbytes := 1 }
    let t := cfg 1 1 fun f => { f with nbytes := 0x20000000 }
    s.rsp.v = false ∧ s.fi.res.toNat ≠ 0 ∧ 8 * s.fi.nbytes.toNat / s.fi.res.toNat = 0 ∧
    t.rsp.v = false ∧ t.fi.res.toNat ≠ 0 ∧ 8 * t.fi.nbytes.toNat / t.fi.res.toNat = 2 ^ 32 := by decide
/-- V120 and V121. -/
theorem witness_FiCountCountsFullFrames :
    let s := cfg 3 3 fun f => { f with nbytes := 2 }
    let t := cfg 1 1 fun f => { f with nbytes := 0x1FFFFFFF }
    s.rsp.v = false ∧ s.fi.res.toNat ≠ 0 ∧ 8 * s.fi.nbytes.toNat / s.fi.res.toNat = 1 ∧
    t.rsp.v = false ∧ t.fi.res.toNat ≠ 0 ∧ 8 * t.fi.nbytes.toNat / t.fi.res.toNat < 2 ^ 32 := by decide
theorem witness_SplitInvertsAddr :
    (cfg 2 2).resConfigured ∧ (cfg 2 2).rsp.v = false ∧
    ∃ t, exec (.fiAddr 1 1) (cfg 2 2) = .next t ∧ t.rsp.err = false := ⟨by decide, rfl, _, rfl, rfl⟩

/-- Ready for `SC_START` with these numbers of frames to play and counted. -/
def counted (interval nframes frames : Nat) : State :=
  { sched { Scheduler.reset with interval := BitVec.ofNat 32 interval, nframes := BitVec.ofNat 32 nframes } with
    fi := { FrameIndexer.reset with frames := BitVec.ofNat 32 frames } }

theorem witness_ScStartStartsPlayback_busy :
    (sched (playing .render)).rsp.v = false ∧ Running (sched (playing .render)) := by unfold Running; decide
theorem witness_ScStartStartsPlayback_operand :
    (counted 0 3 4).rsp.v = false ∧ ¬ Running (counted 0 3 4) ∧ (counted 0 3 4).sc.interval.toNat = 0 ∧
    (counted 10 0 4).rsp.v = false ∧ ¬ Running (counted 10 0 4) ∧ (counted 10 0 4).sc.nframes.toNat = 0 := by
  unfold Running; decide
theorem witness_ScStartStartsPlayback_empty :
    (counted 10 3 0).rsp.v = false ∧ ¬ Running (counted 10 3 0) ∧ (counted 10 3 0).sc.interval.toNat ≠ 0 ∧
    (counted 10 3 0).sc.nframes.toNat ≠ 0 ∧ (counted 10 3 0).fi.frames.toNat = 0 := by unfold Running; decide
theorem witness_ScStartStartsPlayback_range :
    (counted 10 5 4).rsp.v = false ∧ ¬ Running (counted 10 5 4) ∧ (counted 10 5 4).sc.interval.toNat ≠ 0 ∧
    (counted 10 5 4).fi.frames.toNat ≠ 0 ∧ (counted 10 5 4).fi.frames.toNat < (counted 10 5 4).sc.nframes.toNat := by
  unfold Running; decide
theorem witness_ScStartStartsPlayback :
    (counted 1 4 4).rsp.v = false ∧ ¬ Running (counted 1 4 4) ∧ (counted 1 4 4).sc.interval.toNat ≠ 0 ∧
    (counted 1 4 4).sc.nframes.toNat ≠ 0 ∧ (counted 1 4 4).sc.nframes.toNat ≤ (counted 1 4 4).fi.frames.toNat := by
  unfold Running; decide

theorem witness_GateStartsFrame :
    (sched (playing .waitReady)).inputs.rst = false ∧ (sched (playing .waitReady)).sc.st = .waitReady := by decide
theorem witness_RenderFailureFaults :
    (sched (playing .render) { Inputs.idle with rdErr := true }).inputs.rdErr = true ∧
    (sched (playing .render)).inputs.rst = false ∧ (sched (playing .render)).sc.st = .render ∧
    (sched (playing .render)).inputs.rdErr = false ∧ (sched (playing .render)).inputs.rdDone = false := by decide

/-- A render that began at tick 0 and is answered at tick `n`. -/
def answered (n : Nat) (interval : Word := 10) : State :=
  { sched { playing .render with interval := interval } { Inputs.idle with rdDone := true } with now := BitVec.ofNat 32 n }

theorem witness_OverrunResetsDebt :
    (answered 11).inputs.rst = false ∧ (answered 11).sc.st = .render ∧ (answered 11).inputs.rdErr = false ∧
    (answered 11).inputs.rdDone = true ∧ ((answered 11).sc.interval.toNat : Int) < elapsed (answered 11) := by
  unfold elapsed; decide
theorem witness_SlackBecomesDebt :
    (answered 10).sc.st = .render ∧ (answered 10).inputs.rdDone = true ∧
    elapsed (answered 10) ≤ (answered 10).sc.interval.toNat ∧ -2 ^ 31 ≤ elapsed (answered 10) - (answered 10).sc.interval.toNat := by
  unfold elapsed; decide
theorem witness_SlackBecomesDebt_lowest :
    -2 ^ 31 ≤ elapsed (answered 1 0x80000001) - (answered 1 0x80000001).sc.interval.toNat := by unfold elapsed; decide
theorem witness_SlackBecomesDebt_overflow :
    elapsed (answered 1 0x80000002) ≤ (answered 1 0x80000002).sc.interval.toNat ∧
    elapsed (answered 1 0x80000002) - (answered 1 0x80000002).sc.interval.toNat < -2 ^ 31 := by unfold elapsed; decide
theorem witness_SleepCountsTicks :
    let s (n k : Word) := sched { playing .sleep with sleep := n, fidx := k }
    (s 1 0).inputs.rst = false ∧ (s 1 0).sc.st = .sleep ∧ (s 1 0).sc.sleep ≠ 0 ∧
    (s 0 1).sc.sleep = 0 ∧ (s 0 1).sc.fidx.toNat + 1 ≠ (s 0 1).sc.nframes.toNat ∧
    (s 0 2).sc.sleep = 0 ∧ (s 0 2).sc.fidx.toNat + 1 = (s 0 2).sc.nframes.toNat := by decide

/-- A cycle with a tick. -/
def ticking : Inputs := { Inputs.idle with tick := true }

theorem witness_SleepLastsItsTicks :
    let s : State := { sched { playing .sleep with sleep := 2 } with schedule := List.replicate 3 ticking ++ [] }
    s.sc.st = .sleep ∧ s.sc.sleep.toNat = 2 ∧ s.schedule = List.replicate 3 ticking ++ [] ∧
    (List.replicate 3 ticking).length = 2 + 1 ∧ ∀ i ∈ List.replicate 3 ticking, i.rst = false ∧ i.tick = true := by decide

/-- A cycle with a tick and the gate open. -/
def gateOpen : Inputs := { ticking with frameReady := true }

/-- The cycles of a frame that is answered one cycle after its gate and sleeps one tick. -/
def frameCycles : List Inputs := [gateOpen, { gateOpen with rdDone := true }, gateOpen, gateOpen]

/-- The cycles of a frame that is answered three cycles after its gate and does not sleep. -/
def overrunCycles : List Inputs := [gateOpen, gateOpen, gateOpen, { gateOpen with rdDone := true }, gateOpen]

theorem witness_FramePeriod :
    let s : State := { sched { playing .waitReady with interval := 2 } with schedule := frameCycles ++ [] }
    s.sc.st = .waitReady ∧ ((1 : Nat) : Int) + s.sc.debt.toInt + (1 : Nat) = s.sc.interval.toNat ∧
    s.sc.fidx.toNat + 1 ≠ s.sc.nframes.toNat ∧ s.schedule = frameCycles ++ [] ∧ frameCycles.length = 1 + 1 + 2 := by decide
theorem witness_FramePeriod_cycles :
    ∀ k i, frameCycles[k]? = some i →
      i.rst = false ∧ i.tick = true ∧ i.frameReady = true ∧ i.rdErr = false ∧ (i.rdDone = true ↔ k = 1) := by
  intro k i h
  match k with
  | 0 | 1 | 2 | 3 => cases h; decide
  | n + 4 => cases h

theorem witness_FramePeriod_overrun :
    let s : State := { sched { playing .waitReady with interval := 2 } with schedule := overrunCycles ++ [] }
    s.sc.st = .waitReady ∧ (s.sc.interval.toNat : Int) < ((3 : Nat) : Int) + s.sc.debt.toInt ∧
    s.sc.fidx.toNat + 1 ≠ s.sc.nframes.toNat ∧ s.schedule = overrunCycles ++ [] ∧ overrunCycles.length = 3 + 0 + 2 := by decide
theorem witness_FramePeriod_overrun_cycles :
    ∀ k i, overrunCycles[k]? = some i →
      i.rst = false ∧ i.tick = true ∧ i.frameReady = true ∧ i.rdErr = false ∧ (i.rdDone = true ↔ k = 3) := by
  intro k i h
  match k with
  | 0 | 1 | 2 | 3 | 4 => cases h; decide
  | n + 5 => cases h

theorem witness_ConstantRenderGrowsSleep :
    (answered 3).now = (answered 3).sc.fstart + BitVec.ofNat 32 3 ∧ 3 ≤ (answered 3).sc.interval.toNat ∧
    (answered 3).sc.debt.toInt = -((0 * ((answered 3).sc.interval.toNat - 3) : Nat) : Int) ∧
    (0 + 1) * ((answered 3).sc.interval.toNat - 3) ≤ 2 ^ 31 := by decide
theorem witness_RunningConfigIsConstant :
    Running (sched (playing .sleep)) ∧ (sched (playing .sleep)).inputs.rst = false ∧ ∃ t, step (sched (playing .sleep)) = .next t :=
  ⟨.inr (.inr rfl), rfl, _, rfl⟩
/-- Two states that differ in the packer and in what the host presents. -/
theorem witness_RunningSchedulerIgnoresCommands :
    let s := sched (playing .sleep)
    let s' : State := { s with pk := full.pk, cmds := [0x80000000] }
    Running s ∧ s.sc = s'.sc ∧ s.now = s'.now ∧ s.inputs = s'.inputs ∧ s.inputs.rst = false ∧
    (∃ t, step s = .next t) ∧ ∃ t, step s' = .next t :=
  ⟨.inr (.inr rfl), rfl, rfl, rfl, rfl, ⟨_, rfl⟩, ⟨_, rfl⟩⟩
theorem witness_RendererAnswersOnlyRequests :
    (sched (playing .sleep)).sc.st ≠ .render ∧ (sched (playing .sleep)).schedule = [driven] := by decide
theorem witness_StoppedSchedulerTakesNoStep :
    ¬ Running (sched (playing .done)) ∧ (sched (playing .done)).inputs.rst = false := by unfold Running; decide

/-- The host presents `w`. -/
def presenting (w : Word) : State := { start with cmds := [w] }

theorem witness_StoppedSchedulerTakesNoStep_nop :
    let s := presenting 0
    ∀ w rest, Presents s w rest →
      ¬ (w.toNat = 0x80000000 ∨ 0x08000000 ≤ w.toNat ∧ w.toNat < 0x0C000000) ∧ w.toNat ≠ 0x80000000 := by
  intro s w rest hp
  have h := hp.2
  cases h; decide
theorem witness_HeldCommandChangesNothing :
    waiting.inputs.rst = false ∧ ¬ Ready waiting (encode .nop) ∧ ¬ Ready full (encode .pkClr) ∧ ¬ Ready start (encode .upBit) := by
  unfold Ready; decide
theorem witness_EveryCommandResponds :
    Ready start (encode .nop) ∧ Ready full (encode .upClr) ∧ Ready (supplied [0]) (encode .upBit) := by unfold Ready; decide
theorem witness_ErrorsWriteNothingElse :
    Ready start (encode (.rd 6)) ∧ ∃ t, exec (.rd 6) start = .next t ∧ t.rsp.err = true :=
  ⟨by unfold Ready; decide, _, rfl, rfl⟩
theorem witness_CommandsWriteTheirUnit :
    (∃ t, exec .nop start = .next t) ∧ isPacker .nop = false ∧ isUnpacker .nop = false ∧ isFrameIndexer .nop = false ∧
    isWr .nop = false ∧ isWr (.wr 0 1 0) = true := ⟨⟨_, rfl⟩, rfl, rfl, rfl, rfl, rfl⟩
theorem witness_StatusSetWinsOverClear :
    (presenting 0x08010001).inputs.rst = false ∧ ∃ t, step (presenting 0x08010001) = .next t := ⟨rfl, _, rfl⟩
theorem witness_StepRunsDecodedCommand :
    Presents (presenting 0x20000001) 0x20000001 [] ∧ Ready (presenting 0x20000001) 0x20000001 ∧
    decode 0x20000001 = .ok (.pkBit 1) ∧ ∃ u, exec (.pkBit 1) (presenting 0x20000001) = .next u :=
  ⟨by unfold Presents; decide, by unfold Ready; decide, by decide, _, rfl⟩
theorem witness_StepRefusesIllegalWord :
    Presents (presenting 0x0C000000) 0x0C000000 [] ∧ Ready (presenting 0x0C000000) 0x0C000000 ∧
    ∀ i, decode 0x0C000000 ≠ .ok i :=
  ⟨by unfold Presents; decide, by unfold Ready; decide, fun _ h => nomatch h⟩
theorem witness_CommandPortAcceptsOrHolds_ready :
    Presents (presenting 0) 0 [] ∧ (presenting 0).inputs.rst = false ∧ Ready (presenting 0) 0 := by
  unfold Presents Ready; decide
theorem witness_CommandPortAcceptsOrHolds_held :
    Presents (presenting 0x40000000) 0x40000000 [] ∧
    ∀ w rest, Presents (presenting 0x40000000) w rest → ¬ Ready (presenting 0x40000000) w := by
  refine ⟨by unfold Presents; decide, fun w rest hp => ?_⟩
  have h := hp.2
  cases h; unfold Ready; decide
theorem witness_CommandPortAcceptsOrHolds_idle :
    start.inputs.rst = false ∧ start.rsp.v = false ∧ ∀ w rest, Presents start w rest → ¬ Ready start w :=
  ⟨rfl, rfl, fun _ _ hp => nomatch hp.2⟩
theorem witness_CommandPortAcceptsOrHolds_reset :
    (sched (playing .sleep) { Inputs.idle with rst := true }).inputs.rst = true := by decide
theorem witness_NowCountsTicks : start.inputs.rst = false := by decide
theorem witness_ResponseStaysUntilTaken : waiting.rspValid = true := by decide
theorem witness_SinkTakesOutputByte :
    let s : State := { full with schedule := [{ Inputs.idle with boReady := true }] }
    (∃ t, step s = .next t) ∧ s.pk.outV = true ∧ s.inputs.rst = false ∧ s.inputs.boReady = true ∧
    full.inputs.boReady = false ∧ start.pk.outV = false := ⟨⟨_, rfl⟩, rfl, rfl, rfl, rfl, rfl⟩
theorem witness_SourceConsumedByUpBit :
    let s : State := { supplied [0x9C] with cmds := [0x40000000] }
    (∃ t, step s = .next t) ∧ s.biReady = true ∧ start.biReady = false := ⟨⟨_, rfl⟩, rfl, rfl⟩
theorem witness_ResetEdgeResets : (sched (playing .sleep) { Inputs.idle with rst := true }).inputs.rst = true := by decide

theorem witness_LogRecordsCycle :
    let s : State := { waiting with schedule := [{ Inputs.idle with rspReady := true }] }
    let r : State := { s with schedule := [{ Inputs.idle with rst := true }] }
    (∃ t, step s = .next t) ∧ s.inputs.rst = false ∧ (∃ t, step r = .next t) ∧ r.inputs.rst = true :=
  ⟨⟨_, rfl⟩, rfl, ⟨_, rfl⟩, rfl⟩

/-- An endless run from reset in which the host has no command: the first cycle's inputs are low, the others free. -/
def quietRun : Nat → State
  | 0 => { State.reset with schedule := [Inputs.idle] }
  | n + 1 => if (quietRun n).inputs.rst then (quietRun n).resetEdge else (quietRun n).closeCycle (quietRun n)

theorem quietRun_cmds : ∀ n, (quietRun n).cmds = []
  | 0 => rfl
  | n + 1 => by
    have h := quietRun_cmds n
    unfold quietRun
    split
    · exact h
    · simp [State.closeCycle, h]

theorem quietRun_presented (n : Nat) : (quietRun n).presented = none := by
  simp [State.presented, quietRun_cmds]

theorem witness_EndedRunIsFinal : IsRun quietRun ∧ EndPoint quietRun 0 ∧ Uncut quietRun 0 1 := by
  refine ⟨fun n => ?_, ⟨fun k _ => quietRun_presented k, rfl, rfl, rfl⟩, fun k _ h => ?_⟩
  · have ha : (quietRun n).accepted = none := by simp [State.accepted, quietRun_presented]
    conv => rhs; unfold quietRun
    unfold step
    split
    · rfl
    · rw [ha]
  · obtain rfl : k = 0 := by omega
    rfl

/-- That run begins with cycle 0 and ends cleanly at its first boundary. -/
theorem test_run_ends : RunBegins quietRun 0 ∧ EndsCleanly quietRun 0 0 :=
  ⟨⟨rfl, rfl⟩, ⟨Nat.le_refl _, fun _ _ h => absurd h (Nat.not_lt_zero _), witness_EndedRunIsFinal.2.1,
    fun _ _ h => absurd h (Nat.not_lt_zero _)⟩, rfl, by decide⟩

/-- A sleeping scheduler with a debt, an unpacker within a byte, a configured indexer, and a recorded error. -/
def midRun : State :=
  { sched { playing .sleep with debt := 0xFFFFFFFB, sleep := 5 } with
    pk := { Packer.reset with acc := 5, cnt := 3 }
    up := { ubyte := 0x9C, uidx := 3, bytes := 2, bits := 11 }
    fi := { FrameIndexer.reset with width := 2, height := 2, res := 4, nbytes := 2, frames := 4 }
    status := 1, errCode := 3, errCmd := 0x04060000 }

theorem witness_StepKeepsInvariant : midRun.Inv ∧ ∃ t, step midRun = .next t :=
  ⟨⟨by decide, by decide, by decide, by decide, by decide, by decide, by decide, by decide⟩, _, rfl⟩

end Sys2Proof.Tests
end

/-! ## Command words as numbers (R90 to R100) -/

namespace Sys2Proof

/-- Where a word ends in `k` zero bits, a number below `2^k` is put there by adding it. -/
theorem or_eq_add {a b k : Nat} (ha : a % 2 ^ k = 0) (hb : b < 2 ^ k) : a ||| b = a + b := by
  obtain ⟨c, rfl⟩ := Nat.dvd_of_mod_eq_zero ha
  exact (Nat.two_pow_add_eq_or_of_lt hb c).symm

theorem toNat_field (w : Word) (lo len : Nat) : (field w lo len).toNat = w.toNat / 2 ^ lo % 2 ^ len := by
  simp [field, Nat.shiftRight_eq_div_pow]

theorem toNat_opcodeOf (w : Word) : (opcodeOf w).toNat = w.toNat / 2 ^ 26 := by
  rw [opcodeOf, toNat_field]
  omega

/-- The word of a command, as a number, is the sum of its fields at their places (R99). -/
theorem toNat_encode (i : Instr) : (encode i).toNat = Claims.wordOf i := by
  cases i <;> simp only [encode, Claims.wordOf, Claims.wrWord, BitVec.toNat_or, BitVec.toNat_shiftLeft,
    BitVec.toNat_setWidth, BitVec.toNat_ofNat, Nat.shiftLeft_eq]
  case rd reg =>
    have := reg.isLt
    rw [or_eq_add (k := 26) (by omega) (by omega)]
    omega
  case wr h reg imm =>
    have := h.isLt; have := reg.isLt; have := imm.isLt
    rw [or_eq_add (a := 0x08000000) (k := 26) (by omega) (by omega),
      or_eq_add (b := _ * 2 ^ 16 % 2 ^ 32) (k := 22) (by omega) (by omega), or_eq_add (k := 16) (by omega) (by omega)]
    omega
  case pkBit p =>
    have := p.isLt
    rw [or_eq_add (k := 1) (by omega) (by omega)]
    omega
  case pkBits n d =>
    have := n.isLt; have := d.isLt
    rw [or_eq_add (a := 0x24000000) (k := 12) (by omega) (by omega), or_eq_add (k := 8) (by omega) (by omega)]
    omega
  case fiCfg a b | fiAddr a b =>
    have := a.isLt; have := b.isLt
    rw [or_eq_add (b := _ * 2 ^ 13 % 2 ^ 32) (k := 26) (by omega) (by omega), or_eq_add (k := 13) (by omega) (by omega)]
    omega

theorem legalIf_eq_ok {ok : Bool} {i j : Instr} : legalIf ok i = .ok j ↔ ok = true ∧ i = j := by
  cases ok <;> simp [legalIf]

/-- A legal word is the word of the command it decodes to (R90, R100). -/
theorem encode_of_decode {w : Word} {i : Instr} (h : decode w = .ok i) : encode i = w := by
  apply BitVec.eq_of_toNat_eq
  rw [toNat_encode]
  unfold decode at h
  split at h <;> rename_i hop <;> rw [toNat_opcodeOf] at hop <;>
    simp [legalIf_eq_ok, BitVec.toNat_eq, toNat_field] at h
  all_goals
    obtain ⟨h, rfl⟩ := h
    simp [Claims.wordOf, Claims.wrWord, toNat_field]
    omega

end Sys2Proof

namespace Sys2Proof.Machine
open Sys2Proof.Claims

/-! Readiness and the command port -/

theorem isPackerOpcode_iff (op : BitVec 6) : isPackerOpcode op = true ↔ 0x08 ≤ op.toNat ∧ op.toNat ≤ 0x0B := by
  simp only [isPackerOpcode, Bool.or_eq_true, beq_iff_eq, BitVec.toNat_eq, BitVec.ofNat_eq_ofNat, BitVec.toNat_ofNat]
  omega

/-- R24 as the spec writes it is the absence of the model's hold. -/
theorem ready_iff (s : State) (w : Word) : Ready s w ↔ s.inputs.rst = false ∧ s.held (opcodeOf w) = false := by
  have hpk := isPackerOpcode_iff (opcodeOf w)
  have hup : (opcodeOf w == 0x10) = true ↔ w.toNat / 2 ^ 26 = 0x10 := by
    simp [BitVec.toNat_eq, toNat_opcodeOf]
  rw [toNat_opcodeOf] at hpk
  simp only [Ready, State.held, State.biValid, ← Bool.not_eq_true, Bool.or_eq_true, Bool.and_eq_true, hpk, hup,
    Bool.not_eq_true', beq_iff_eq, List.isEmpty_iff]
  tauto

theorem accepted_eq_some_iff {s : State} {w : Word} : s.accepted = some w ↔ ∃ rest, Presents s w rest ∧ Ready s w := by
  simp only [State.accepted, Option.filter_eq_some_iff, State.presented, State.cmdReady, ready_iff, Presents]
  cases s.inputs.cmdValid <;> simp [List.head?_eq_some_iff]

theorem accepted_of_ready {s : State} {w : Word} {rest : List Word} (hp : Presents s w rest) (hr : Ready s w) :
    s.accepted = some w := accepted_eq_some_iff.mpr ⟨rest, hp, hr⟩

theorem accepted_eq_none_iff {s : State} : s.accepted = none ↔ ∀ w rest, Presents s w rest → ¬ Ready s w := by
  rw [Option.eq_none_iff_forall_ne_some]
  simp [accepted_eq_some_iff]

/-! What a command does -/

/-- What each command writes when it completes, its response aside, with the conditions it has checked (R120 to R127, R141 to
R144, R161, R162, R181 to R184, R202). -/
inductive Effect (s : State) : Instr → State → Prop
  | nop : Effect s .nop s
  | rd (reg : BitVec 6) : Effect s (.rd reg) s
  | wrNothing (reg : BitVec 6) (imm : BitVec 16) : Effect s (.wr 1 reg imm) s
  | wrStatus (reg : BitVec 6) (imm : BitVec 16) (hr : RegName.ofIndex reg = some .status) :
      Effect s (.wr 0 reg imm) (s.recover (imm.extractLsb' 0 3))
  | wrIrqEn (reg : BitVec 6) (imm : BitVec 16) (hr : RegName.ofIndex reg = some .irqEn) :
      Effect s (.wr 0 reg imm) { s with irqEn := imm.extractLsb' 0 3 }
  | wrNbytes (h : BitVec 1) (reg : BitVec 6) (imm : BitVec 16) (hr : RegName.ofIndex reg = some .fiNbytes) :
      Effect s (.wr h reg imm) (s.writeNbytes h imm)
  | wrFrm (h : BitVec 1) (reg : BitVec 6) (imm : BitVec 16) (hr : RegName.ofIndex reg = some .fiFrm) :
      Effect s (.wr h reg imm) (s.writeFrm h imm)
  | wrG (h : BitVec 1) (reg : BitVec 6) (imm : BitVec 16) (hr : RegName.ofIndex reg = some .fiG) :
      Effect s (.wr h reg imm) (s.writeG h imm)
  | wrInterval (h : BitVec 1) (reg : BitVec 6) (imm : BitVec 16) (hr : RegName.ofIndex reg = some .scInterval)
      (hst : s.sc.st.running = false) : Effect s (.wr h reg imm) (s.writeInterval h imm)
  | wrNframes (h : BitVec 1) (reg : BitVec 6) (imm : BitVec 16) (hr : RegName.ofIndex reg = some .scNframes)
      (hst : s.sc.st.running = false) : Effect s (.wr h reg imm) (s.writeNframes h imm)
  | pkBit (p : BitVec 1) : Effect s (.pkBit p) (s.withPk (s.pk.bitStep p))
  | pkBits (n : BitVec 4) (d : BitVec 8) (hn : 1 ≤ n.toNat ∧ n.toNat ≤ 8) :
      Effect s (.pkBits n d) (s.withPk (s.pk.bitsStep n d))
  | pkFlush : Effect s .pkFlush (s.withPk s.pk.flush)
  | pkClr : Effect s .pkClr (s.withPk s.pk.clear)
  | upBitNew (b : Byte) (rest : List Byte) (hi : s.up.uidx = 8) (hs : s.source = b :: rest) :
      Effect s .upBit ((s.withSource rest).withUp (s.up.stepNew b))
  | upBitSame (hi : s.up.uidx ≠ 8) : Effect s .upBit (s.withUp s.up.stepSame)
  | upClr : Effect s .upClr (s.withUp s.up.clear)
  | fiCfg (a b : BitVec 13) (ha : a ≠ 0) (hb : b ≠ 0) : Effect s (.fiCfg a b) (s.withFi (s.fi.configure a b))
  | fiAddr (a b : BitVec 13) (hres : s.fi.res ≠ 0) (ha : a.toNat < s.fi.height.toNat) (hb : b.toNat < s.fi.width.toNat)
      (hg : s.fi.address a b < 2 ^ 32) :
      Effect s (.fiAddr a b) (s.withFi { s.fi with g := BitVec.ofNat 32 (s.fi.address a b) })
  | fiSplit (hres : s.fi.res ≠ 0) : Effect s .fiSplit (s.withFi s.fi.split)
  | fiCount (hres : s.fi.res ≠ 0) (hpos : s.fi.fullFrames ≠ 0) (hlt : s.fi.fullFrames < 2 ^ 32) :
      Effect s .fiCount (s.withFi { s.fi with frames := BitVec.ofNat 32 s.fi.fullFrames })
  | scStart (hst : s.sc.st.running = false) (hint : s.sc.interval ≠ 0) (hn : s.sc.nframes ≠ 0) (hfr : s.fi.frames ≠ 0)
      (hle : s.sc.nframes.toNat ≤ s.fi.frames.toNat) : Effect s .scStart (s.withSc s.sc.start)

/-- Which error each command raises, and when (R121, R122, R142, R181 to R184, R202). -/
inductive Raises (s : State) : Instr → CommandError → Prop
  | rdUnallocated (reg : BitVec 6) (hr : RegName.ofIndex reg = none) : Raises s (.rd reg) .reg
  | wrUnallocated (h : BitVec 1) (reg : BitVec 6) (imm : BitVec 16) (hr : RegName.ofIndex reg = none) :
      Raises s (.wr h reg imm) .reg
  | wrReadOnly (h : BitVec 1) (reg : BitVec 6) (imm : BitVec 16) (r : RegName) (hr : RegName.ofIndex reg = some r)
      (ha : r.access = .ro ∨ r.access = .derived) : Raises s (.wr h reg imm) .reg
  | wrBusy (h : BitVec 1) (reg : BitVec 6) (imm : BitVec 16) (r : RegName) (hr : RegName.ofIndex reg = some r)
      (hb : r.busyGuarded = true) (hst : s.sc.st.running = true) : Raises s (.wr h reg imm) .busy
  | pkBits (n : BitVec 4) (d : BitVec 8) (hn : n.toNat = 0 ∨ 8 < n.toNat) : Raises s (.pkBits n d) .operand
  | fiCfg (a b : BitVec 13) (hab : a = 0 ∨ b = 0) : Raises s (.fiCfg a b) .operand
  | fiAddrNocfg (a b : BitVec 13) (hres : s.fi.res = 0) : Raises s (.fiAddr a b) .nocfg
  | fiAddrOutside (a b : BitVec 13) (hab : s.fi.height.toNat ≤ a.toNat ∨ s.fi.width.toNat ≤ b.toNat) :
      Raises s (.fiAddr a b) .range
  | fiAddrTooBig (a b : BitVec 13) (hg : 2 ^ 32 ≤ s.fi.address a b) : Raises s (.fiAddr a b) .range
  | fiSplit (hres : s.fi.res = 0) : Raises s .fiSplit .nocfg
  | fiCountNocfg (hres : s.fi.res = 0) : Raises s .fiCount .nocfg
  | fiCountEmpty (hf : s.fi.fullFrames = 0) : Raises s .fiCount .empty
  | fiCountTooBig (hf : 2 ^ 32 ≤ s.fi.fullFrames) : Raises s .fiCount .range
  | scStartBusy (hst : s.sc.st.running = true) : Raises s .scStart .busy
  | scStartOperand (h : s.sc.interval = 0 ∨ s.sc.nframes = 0) : Raises s .scStart .operand
  | scStartEmpty (hf : s.fi.frames = 0) : Raises s .scStart .empty
  | scStartRange (hf : s.fi.frames.toNat < s.sc.nframes.toNat) : Raises s .scStart .range

/-- The two ways a command rule ends: its writes, or its error (R233). -/
def RuleAllowed (s : State) (i : Instr) : Except CommandError (State × Word) → Prop
  | .ok (u, _) => Effect s i u
  | .error e => Raises s i e

/-- A register write that succeeds is one of the writes of R123 to R127; the high half of `STATUS` and of `IRQ_EN` writes
nothing. -/
theorem effect_writeReg {s u : State} {h : BitVec 1} {reg : BitVec 6} {imm : BitVec 16} {r : RegName}
    (hr : RegName.ofIndex reg = some r) (hb : ¬ (r.busyGuarded = true ∧ s.sc.st.running = true))
    (hw : s.writeReg h imm r = .ok u) : Effect s (.wr h reg imm) u := by
  cases r <;> cases hw
  case status =>
    unfold State.writeStatus
    split
    · next h0 => subst h0; exact .wrStatus reg imm hr
    · next h0 => rw [(BitVec.eq_zero_or_eq_one h).resolve_left h0]; exact .wrNothing reg imm
  case irqEn =>
    unfold State.writeIrqEn
    split
    · next h0 => subst h0; exact .wrIrqEn reg imm hr
    · next h0 => rw [(BitVec.eq_zero_or_eq_one h).resolve_left h0]; exact .wrNothing reg imm
  case fiNbytes => exact .wrNbytes h reg imm hr
  case fiFrm => exact .wrFrm h reg imm hr
  case fiG => exact .wrG h reg imm hr
  case scInterval => exact .wrInterval h reg imm hr (by simpa [RegName.busyGuarded] using hb)
  case scNframes => exact .wrNframes h reg imm hr (by simpa [RegName.busyGuarded] using hb)

/-- Only a read-only or derived register refuses a write (R52). -/
theorem writeReg_error {s : State} {h : BitVec 1} {imm : BitVec 16} {r : RegName} {e : CommandError}
    (hw : s.writeReg h imm r = .error e) : r.access = .ro ∨ r.access = .derived := by
  cases r <;> cases hw <;> simp [RegName.access]

/-- Every command is its rule in the command frame, but for an `UP_BIT` that waits for its byte. -/
theorem exec_frame (i : Instr) (s : State) :
    (∃ r, exec i s = s.runCommand i r ∧ RuleAllowed s i r) ∨
    (s.held (opcodeOf (encode i)) = true ∧ exec i s = .next s) := by
  cases i with
  | nop => exact .inl ⟨.ok (s, 0), rfl, .nop⟩
  | rd reg =>
    refine .inl ⟨_, rfl, ?_⟩
    cases hr : RegName.ofIndex reg with
    | none => exact .rdUnallocated reg hr
    | some r => exact .rd reg
  | wr h reg imm =>
    refine .inl ⟨_, rfl, ?_⟩
    cases hr : RegName.ofIndex reg with
    | none => exact .wrUnallocated h reg imm hr
    | some r =>
      dsimp only
      split_ifs with ha hb
      · exact .wrReadOnly h reg imm r hr ha
      · exact .wrBusy h reg imm r hr hb.1 hb.2
      · cases hw : s.writeReg h imm r with
        | ok u => exact effect_writeReg hr hb hw
        | error e => exact absurd (writeReg_error hw) ha
  | pkBit p => exact .inl ⟨.ok (_, 0), rfl, .pkBit p⟩
  | pkBits n d =>
    refine .inl ⟨_, rfl, ?_⟩
    split_ifs with hn
    · exact .pkBits n d hn
    · exact .pkBits n d (by omega)
  | pkFlush => exact .inl ⟨.ok (_, 0), rfl, .pkFlush⟩
  | pkClr => exact .inl ⟨.ok (_, 0), rfl, .pkClr⟩
  | upBit =>
    simp only [exec, execUpBit]
    split
    · next hi =>
      split
      · next hs => exact .inr ⟨by simp [hi, hs, State.biValid], rfl⟩
      · next b rest hs => exact .inl ⟨_, rfl, .upBitNew b rest hi hs⟩
    · next hi => exact .inl ⟨_, rfl, .upBitSame hi⟩
  | upClr => exact .inl ⟨.ok (_, 0), rfl, .upClr⟩
  | fiCfg a b =>
    refine .inl ⟨_, rfl, ?_⟩
    split_ifs with hab
    · exact .fiCfg a b hab
    · exact .fiCfg a b (fun h => hab (.inl h)) (fun h => hab (.inr h))
  | fiAddr a b =>
    refine .inl ⟨_, rfl, ?_⟩
    split_ifs with hres hab hg
    · exact .fiAddrNocfg a b hres
    · exact .fiAddrOutside a b hab
    · exact .fiAddrTooBig a b hg
    · exact .fiAddr a b hres (by omega) (by omega) (by omega)
  | fiSplit =>
    refine .inl ⟨_, rfl, ?_⟩
    split_ifs with hres
    · exact .fiSplit hres
    · exact .fiSplit hres
  | fiCount =>
    refine .inl ⟨_, rfl, ?_⟩
    split_ifs with hres h0 hbig
    · exact .fiCountNocfg hres
    · exact .fiCountEmpty h0
    · exact .fiCountTooBig hbig
    · exact .fiCount hres h0 (by omega)
  | scStart =>
    refine .inl ⟨_, rfl, ?_⟩
    split_ifs with hst h0 hf hlt
    · exact .scStartBusy hst
    · exact .scStartOperand h0
    · exact .scStartEmpty hf
    · exact .scStartRange hlt
    · exact .scStart (by simpa using hst) (fun h => h0 (.inl h)) (fun h => h0 (.inr h)) hf (by omega)

/-- A held command is not executed (R23, R270). -/
theorem exec_held {s : State} {i : Instr} (hh : s.held (opcodeOf (encode i)) = true) : exec i s = .next s := by
  rcases exec_frame i s with ⟨r, hx, -⟩ | ⟨-, hx⟩
  · rw [hx, runCommand_held r hh]
  · exact hx

/-- A command that no hold keeps performs its writes and responds, or raises its error (R233). -/
theorem exec_ready {s : State} {i : Instr} (hh : s.held (opcodeOf (encode i)) = false) :
    (∃ u d, Effect s i u ∧ exec i s = .next (u.respond false d)) ∨
    (∃ e, Raises s i e ∧ exec i s = .next (s.raise (encode i) e)) := by
  rcases exec_frame i s with ⟨(e | ⟨u, d⟩), hx, hr⟩ | ⟨hh', -⟩
  · exact .inr ⟨e, hr, hx.trans (runCommand_error e hh)⟩
  · exact .inl ⟨u, d, hr, hx.trans (runCommand_ok u d hh)⟩
  · exact absurd hh' (by simp [hh])

/-! The cycle -/

/-- What step 2 of a cycle with `rst = 0` makes of the state (R264): nothing where no word is accepted, the error of an
illegal word or of a command, or the command's writes with a response. -/
inductive CommandPhase (s : State) : State → Prop
  | idle (ha : s.accepted = none) : CommandPhase s s
  | illegal (w : Word) (why : Illegal) (ha : s.accepted = some w) (hd : decode w = .error why) :
      CommandPhase s (s.raise w .illegal)
  | raised (w : Word) (i : Instr) (e : CommandError) (ha : s.accepted = some w) (hd : decode w = .ok i)
      (hr : Raises s i e) : CommandPhase s (s.raise w e)
  | done (w : Word) (i : Instr) (u : State) (d : Word) (ha : s.accepted = some w) (hd : decode w = .ok i)
      (he : Effect s i u) : CommandPhase s (u.respond false d)

theorem step_reset {s : State} (h : s.inputs.rst = true) : step s = .next s.resetEdge := by simp [step, h]

theorem step_idle {s : State} (h : s.inputs.rst = false) (ha : s.accepted = none) : step s = .next (s.closeCycle s) := by
  simp [step, h, ha]

theorem step_illegal {s : State} {w : Word} {why : Illegal} (h : s.inputs.rst = false) (ha : s.accepted = some w)
    (hd : decode w = .error why) : step s = .next (s.closeCycle (s.raise w .illegal)) := by
  simp [step, h, ha, hd, runIllegal]

theorem step_command {s : State} {w : Word} {i : Instr} (h : s.inputs.rst = false) (ha : s.accepted = some w)
    (hd : decode w = .ok i) : step s = mapNext s.closeCycle (exec i s) := by
  simp [step, h, ha, hd]

/-- A cycle with `rst = 0` closes around its command phase, so it has a next state. -/
theorem step_running {s : State} (h : s.inputs.rst = false) :
    ∃ u, CommandPhase s u ∧ step s = .next (s.closeCycle u) := by
  cases ha : s.accepted with
  | none => exact ⟨s, .idle ha, step_idle h ha⟩
  | some w =>
    cases hd : decode w with
    | error why => exact ⟨_, .illegal w why ha hd, step_illegal h ha hd⟩
    | ok i =>
      have hw := encode_of_decode hd
      obtain ⟨-, -, hh, -⟩ := accepted_cases ha
      rw [← hw] at hh
      rcases exec_ready hh with ⟨u, d, he, hx⟩ | ⟨e, hr, hx⟩
      · exact ⟨_, .done w i u d ha hd he, by rw [step_command h ha hd, hx]; rfl⟩
      · exact ⟨_, .raised w i e ha hd hr, by rw [step_command h ha hd, hx, hw]; rfl⟩

/-- Every cycle is a reset edge or closes around its command phase. -/
theorem step_phases {s t : State} (h : step s = .next t) :
    (s.inputs.rst = true ∧ t = s.resetEdge) ∨
    (s.inputs.rst = false ∧ ∃ u, CommandPhase s u ∧ t = s.closeCycle u) := by
  cases hr : s.inputs.rst with
  | true => cases (step_reset hr).symm.trans h; exact .inl ⟨rfl, rfl⟩
  | false =>
    obtain ⟨u, hu, hs⟩ := step_running hr
    cases hs.symm.trans h
    exact .inr ⟨rfl, u, hu, rfl⟩

theorem CommandPhase.eq_of_not_accepted {s u : State} (hu : CommandPhase s u) (ha : s.accepted = none) : u = s := by
  cases hu <;> simp_all

/-- Every accepted word responds (R233). -/
theorem CommandPhase.responds {s u : State} {w : Word} (hu : CommandPhase s u) (ha : s.accepted = some w) :
    u.rsp.v = true := by
  cases hu with
  | idle h => simp [h] at ha
  | _ => rfl

/-! The scheduler's events and the edge -/

/-- The model's `elapsed` is R207's exact integer. -/
theorem elapsed_eq (s : State) : s.sc.elapsed s.now = elapsed s := by
  have := s.sc.fstart.isLt
  simp only [Scheduler.elapsed, elapsed, BitVec.toNat_sub]
  congr 3
  omega

/-- The branch of `rd_done = 1` sets `SC_FAULT` where the debt does not fit, and no other flag (R209). -/
theorem rendered_set5 (sc : Scheduler) (now : Word) {i : Nat} (hi : i < 3) :
    (sc.rendered now).set5.getLsbD i = true ↔
      i = 2 ∧ sc.elapsed now ≤ sc.interval.toNat ∧ sc.elapsed now - sc.interval.toNat < -2 ^ 31 := by
  rcases rendered_cases sc now with ⟨hlt, h⟩ | ⟨hlt, h⟩ | ⟨hge, -, h⟩ <;> rw [h]
  · simp; omega
  · interval_cases i <;> simp [statusScFault] ; omega
  · simp; omega

/-- The end of a sleep sets `SC_DONE` after the last frame, and no other flag (R212). -/
theorem sleepOver_set5 (sc : Scheduler) {i : Nat} (hi : i < 3) :
    sc.sleepOver.set5.getLsbD i = true ↔ i = 1 ∧ sc.fidx.toNat + 1 = sc.nframes.toNat := by
  unfold Scheduler.sleepOver
  split
  · interval_cases i <;> simp [statusScDone, *]
  · simp [*]

/-- The scheduler's step sets `SC_DONE` and `SC_FAULT` by their events, and no other flag (R265 step 5). -/
theorem schedStep_set5 (s : State) {i : Nat} (hi : i < 3) :
    s.schedStep.set5.getLsbD i = true ↔ (i = 1 ∧ DoneEvent s) ∨ (i = 2 ∧ FaultEvent s) := by
  unfold State.schedStep Scheduler.step DoneEvent FaultEvent
  cases hst : s.sc.st with
  | idle | done | fault => simp
  | waitReady => cases s.inputs.frameReady <;> simp
  | render =>
    cases s.inputs.rdErr
    · cases s.inputs.rdDone <;> simp [rendered_set5 _ _ hi, elapsed_eq]
    · interval_cases i <;> simp [statusScFault]
  | sleep =>
    by_cases h0 : s.sc.sleep = 0#32
    · simp [h0, sleepOver_set5 _ hi]
    · cases s.inputs.tick <;> simp [h0]

theorem running_iff (s : State) : Running s ↔ s.sc.st.running = true := by
  unfold Running
  cases s.sc.st <;> simp [SchedState.running]

theorem zext32_bit (b : Bool) : zext32 (bit b) = BitVec.ofNat 32 b.toNat := by cases b <;> rfl

theorem rspTaken_eq {s : State} (h : s.inputs.rst = false) : s.rspTaken = (s.rsp.v && s.inputs.rspReady) := by
  simp [State.rspTaken, State.rspValid, h]

theorem boTaken_eq {s : State} (h : s.inputs.rst = false) : s.boTaken = (s.pk.outV && s.inputs.boReady) := by
  simp [State.boTaken, State.boValid, h]

/-- The edge drops the response that is taken, and keeps it otherwise (R25). -/
theorem closeCycle_rsp_cases (s u : State) :
    (s.closeCycle u).rsp = if s.rspTaken then { u.rsp with v := false } else u.rsp := by
  rw [State.closeCycle_rsp]
  split <;> rfl

/-- The edge drops the byte that is taken, and keeps it otherwise (R26). -/
theorem closeCycle_pk_cases (s u : State) :
    (s.closeCycle u).pk = if s.boTaken then { u.pk with outV := false } else u.pk := by
  rw [State.closeCycle_pk]
  split <;> rfl

/-- The edge of a cycle with `rst = 0`, field by field (R264, R265). -/
theorem closes_closeCycle {s u : State} (h : s.inputs.rst = false)
    (hcfg : Running s → u.sc.interval = s.sc.interval ∧ u.sc.nframes = s.sc.nframes) :
    Closes s u (s.closeCycle u) (if s.accepted.isSome then s.cmds.tail else s.cmds) where
  commandWrites := ⟨rfl, rfl, rfl, rfl, rfl, rfl⟩
  packer := by rw [closeCycle_pk_cases, boTaken_eq h]; split <;> simp [*]
  response := by rw [closeCycle_rsp_cases, rspTaken_eq h]; split <;> simp [*]
  sink := by rw [State.closeCycle_sink, boTaken_eq h]; split <;> simp [State.boData]
  stopped hn := by simp [State.mergeSched, ← running_iff, hn]
  running hr := by simpa [State.mergeSched, ← running_iff, hr] using hcfg hr
  status i hi := by simp [setStatus, schedStep_set5 s hi]
  now := by rw [State.closeCycle_now, zext32_bit]
  environment := ⟨rfl, rfl, rfl⟩

/-! The W1C write of `STATUS` -/

theorem ofIndex_eq_status {reg : BitVec 6} : RegName.ofIndex reg = some .status ↔ reg = 1 := by
  refine ⟨fun h => ?_, fun h => by subst h; rfl⟩
  unfold RegName.ofIndex at h
  split at h <;> cases h
  exact BitVec.eq_of_toNat_eq ‹_›

/-- A word whose upper half is `0x0801` is the write of the low half of `STATUS` (R99, R123). -/
theorem decode_statusWord {w : Word} (h : w.toNat / 2 ^ 16 = 0x0801) : decode w = .ok (.wr 0 1 (field w 0 16)) := by
  have hop : (opcodeOf w).toNat = 0x02 := by rw [toNat_opcodeOf]; omega
  have h0 : field w 23 3 = 0 := BitVec.eq_of_toNat_eq (by rw [toNat_field]; simp; omega)
  have hh : field w 22 1 = 0 := BitVec.eq_of_toNat_eq (by rw [toNat_field]; simp; omega)
  have hr : field w 16 6 = 1 := BitVec.eq_of_toNat_eq (by rw [toNat_field]; simp; omega)
  simp [decode, hop, legalIf, h0, hh, hr]

theorem clears_iff_accepted (s : State) (k : Nat) :
    Clears s k ↔ ∃ w, s.accepted = some w ∧ w.toNat / 2 ^ 16 = 0x0801 ∧ w.getLsbD k = true := by
  simp only [Clears, accepted_eq_some_iff, exists_and_right, and_assoc]

/-- The accepted command clears flag `k` exactly when it is the write of the low half of `STATUS` with bit `k` set. -/
theorem clears_iff_of_decode {s : State} {w : Word} {i : Instr} {k : Nat} (hk : k < 16) (ha : s.accepted = some w)
    (hd : decode w = .ok i) :
    Clears s k ↔ ∃ imm : BitVec 16, i = .wr 0 1 imm ∧ imm.getLsbD k = true := by
  rw [clears_iff_accepted]
  constructor
  · rintro ⟨w', ha', hw, hb⟩
    cases ha.symm.trans ha'
    cases hd.symm.trans (decode_statusWord hw)
    exact ⟨_, rfl, by simpa [field, hk] using hb⟩
  · rintro ⟨imm, rfl, hb⟩
    have hw : w.toNat / 2 ^ 16 = 0x0801 := by
      have := imm.isLt
      simp [← encode_of_decode hd, toNat_encode, wordOf, wrWord]
      omega
    cases hd.symm.trans (decode_statusWord hw)
    exact ⟨w, ha, hw, by simpa [field, hk] using hb⟩

theorem not_clears_of_illegal {s : State} {w : Word} {why : Illegal} (k : Nat) (ha : s.accepted = some w)
    (hd : decode w = .error why) : ¬ Clears s k := by
  rw [clears_iff_accepted]
  rintro ⟨w', ha', hw, -⟩
  cases ha.symm.trans ha'
  cases hd.symm.trans (decode_statusWord hw)

/-- The write of `STATUS` raises no error (R123). -/
theorem not_raises_wrStatus {s : State} {h : BitVec 1} {imm : BitVec 16} {e : CommandError} :
    ¬ Raises s (.wr h 1 imm) e := by
  have hs : RegName.ofIndex 1 = some .status := rfl
  intro hr
  cases hr with
  | wrUnallocated _ _ _ hr => cases hs.symm.trans hr
  | wrReadOnly _ _ _ r hr ha => cases hs.symm.trans hr; simp [RegName.access] at ha
  | wrBusy _ _ _ r hr hb => cases hs.symm.trans hr; simp [RegName.busyGuarded] at hb

/-- Raising an error sets `CMD_ERR` and no other flag (R232). -/
theorem raise_status_getLsbD (s : State) (w : Word) (e : CommandError) {k : Nat} (hk : k < 3) :
    (s.raise w e).status.getLsbD k = true ↔ s.status.getLsbD k = true ∨ k = 0 := by
  have : statusCmdErr.getLsbD k = true ↔ k = 0 := by interval_cases k <;> decide
  simp [setStatus, this]

/-- A command that completes changes the flags only by a W1C write of `STATUS` (R123). -/
theorem Effect.status_eq {s u : State} {i : Instr} (he : Effect s i u) (hi : ¬ ∃ imm, i = .wr 0 1 imm) :
    u.status = s.status := by
  cases he with
  | wrStatus reg imm hr => exact absurd ⟨imm, by rw [ofIndex_eq_status.mp hr]⟩ hi
  | _ => rfl

theorem Effect.eq_recover {s u : State} {imm : BitVec 16} (he : Effect s (.wr 0 1 imm) u) :
    u = s.recover (imm.extractLsb' 0 3) := by
  have hs : RegName.ofIndex 1 = some .status := rfl
  cases he with
  | wrStatus => rfl
  | _ => simp_all

/-- What the command phase makes of the flags (R265): the W1C clear, or `CMD_ERR` set by an error. -/
theorem CommandPhase.status_iff {s u : State} (hu : CommandPhase s u) {k : Nat} (hk : k < 3) :
    u.status.getLsbD k = true ↔
      (s.status.getLsbD k = true ∧ ¬ Clears s k) ∨ (k = 0 ∧ s.accepted.isSome ∧ u.rsp.err = true) := by
  cases hu with
  | idle ha => simp [clears_iff_accepted, ha]
  | illegal w why ha hd =>
    have hn := not_clears_of_illegal k ha hd
    rw [raise_status_getLsbD s w _ hk]
    simp [hn, ha]
  | raised w i e ha hd hr =>
    have hn : ¬ Clears s k := by
      rw [clears_iff_of_decode (by omega) ha hd]
      rintro ⟨imm, rfl, -⟩
      exact not_raises_wrStatus hr
    rw [raise_status_getLsbD s w _ hk]
    simp [hn, ha]
  | done w i u d ha hd he =>
    rw [clears_iff_of_decode (by omega) ha hd]
    by_cases hi : ∃ imm, i = .wr 0 1 imm
    · obtain ⟨imm, rfl⟩ := hi
      cases he.eq_recover
      simp [clearStatus, hk]
    · have hn : ¬ ∃ imm, i = .wr 0 1 imm ∧ imm.getLsbD k = true := fun ⟨imm, h, _⟩ => hi ⟨imm, h⟩
      simp only [State.respond_status, he.status_eq hi, hn]
      simp

/-! The output byte and the source -/

/-- Only a packer command writes the packer (R265 step 2). -/
theorem Effect.pk_eq {s u : State} {i : Instr} (he : Effect s i u) (hi : isPacker i = false) : u.pk = s.pk := by
  cases he with
  | pkBit | pkBits | pkFlush | pkClr => cases hi
  | _ => rfl

theorem isPackerOpcode_encode {i : Instr} (hi : isPacker i = true) : isPackerOpcode (opcodeOf (encode i)) = true := by
  cases i <;> simp_all [isPacker, isPackerOpcode]

/-- While a byte waits in the output buffer no packer command is accepted, so the packer stays (R24). -/
theorem CommandPhase.pk_eq {s u : State} (hu : CommandPhase s u) (hv : s.pk.outV = true) : u.pk = s.pk := by
  cases hu with
  | done w i u d ha hd he =>
    obtain ⟨-, -, hh, -⟩ := accepted_cases ha
    refine he.pk_eq (Bool.eq_false_iff.mpr fun hi => ?_)
    rw [← encode_of_decode hd] at hh
    simp [State.held, isPackerOpcode_encode hi, hv] at hh
  | _ => rfl

theorem biReady_iff (s : State) : s.biReady = true ↔ s.accepted = some 0x40000000#32 ∧ s.up.uidx = 8 := by
  simp [State.biReady]

theorem biReady_iff_of_decode {s : State} {w : Word} {i : Instr} (ha : s.accepted = some w) (hd : decode w = .ok i) :
    s.biReady = true ↔ i = .upBit ∧ s.up.uidx = 8 := by
  have hw : w = 0x40000000#32 ↔ i = .upBit := by
    constructor
    · rintro rfl
      cases hd
      rfl
    · rintro rfl
      exact (encode_of_decode hd).symm
  simp [biReady_iff, ha, hw]

/-- A byte is consumed exactly by an `UP_BIT` with `UIDX = 8`, and becomes `UBYTE` (R161). -/
theorem Effect.source_cases {s u : State} {i : Instr} (he : Effect s i u) :
    ((i = .upBit ∧ s.up.uidx = 8) ∧ s.source = u.up.ubyte :: u.source) ∨
    (¬ (i = .upBit ∧ s.up.uidx = 8) ∧ u.source = s.source) := by
  cases he with
  | upBitNew b rest hi hs => exact .inl ⟨⟨rfl, hi⟩, hs⟩
  | upBitSame hi => exact .inr ⟨fun h => hi h.2, rfl⟩
  | _ => exact .inr ⟨fun h => (nomatch h.1), rfl⟩

/-- The command phase consumes a byte exactly where `bi_ready = 1` (R27). -/
theorem CommandPhase.source_cases {s u : State} (hu : CommandPhase s u) :
    (s.biReady = true ∧ s.source = u.up.ubyte :: u.source) ∨ (s.biReady = false ∧ u.source = s.source) := by
  cases hu with
  | idle ha => exact .inr ⟨by simp [State.biReady, ha], rfl⟩
  | illegal w why ha hd =>
    refine .inr ⟨Bool.eq_false_iff.mpr fun h => ?_, rfl⟩
    cases ha.symm.trans ((biReady_iff s).mp h).1
    cases hd
  | raised w i e ha hd hr =>
    refine .inr ⟨Bool.eq_false_iff.mpr fun h => ?_, rfl⟩
    obtain ⟨rfl, -⟩ := (biReady_iff_of_decode ha hd).mp h
    cases hr
  | done w i u d ha hd he =>
    rw [← Bool.not_eq_true, biReady_iff_of_decode ha hd]
    exact he.source_cases

/-! The invariants of R55 and R37: each command keeps them -/

theorem Packer.bitStep_accBounded {k : Packer} (h : k.acc.toNat < 2 ^ k.cnt.toNat) (p : BitVec 1) :
    (k.bitStep p).acc.toNat < 2 ^ (k.bitStep p).cnt.toNat := by
  unfold Packer.bitStep
  dsimp only
  split
  · simp
  · next h7 =>
    have hc : k.cnt.toNat < 7 := by
      have := k.cnt.isLt
      have : k.cnt.toNat ≠ 7 := fun h => h7 (BitVec.eq_of_toNat_eq h)
      omega
    have hp := p.isLt
    have hle : 2 ^ k.cnt.toNat ≤ 2 ^ 6 := Nat.pow_le_pow_right (by decide) (by omega)
    have hcnt : (k.cnt + 1).toNat = k.cnt.toNat + 1 := by simp [BitVec.toNat_add]; omega
    have hacc : ((k.acc <<< 1) + p.setWidth 8).toNat = 2 * k.acc.toNat + p.toNat := by
      simp [BitVec.toNat_add, Nat.shiftLeft_eq]; omega
    simp only [hcnt, hacc, Nat.pow_succ]
    omega

theorem Packer.bitsStep_accBounded {k : Packer} (h : k.acc.toNat < 2 ^ k.cnt.toNat) {n : BitVec 4} (hn : n.toNat ≤ 8)
    (d : BitVec 8) : (k.bitsStep n d).acc.toNat < 2 ^ (k.bitsStep n d).cnt.toNat := by
  have hc := k.cnt.isLt
  have hv : (k.acc.toNat <<< n.toNat) + d.toNat % 2 ^ n.toNat < 2 ^ (k.cnt.toNat + n.toNat) := by
    have hd := Nat.mod_lt d.toNat (Nat.two_pow_pos n.toNat)
    rw [Nat.shiftLeft_eq, Nat.pow_add]
    calc _ < k.acc.toNat * 2 ^ n.toNat + 2 ^ n.toNat := by omega
      _ = (k.acc.toNat + 1) * 2 ^ n.toNat := by ring
      _ ≤ _ := Nat.mul_le_mul_right _ h
  unfold Packer.bitsStep
  dsimp only
  generalize (k.acc.toNat <<< n.toNat) + d.toNat % 2 ^ n.toNat = v at hv ⊢
  split <;> simp only [BitVec.toNat_ofNat]
  · rw [Nat.mod_eq_of_lt (a := _ - 8) (by omega)]
    exact (Nat.mod_le _ _).trans_lt (Nat.mod_lt _ (Nat.two_pow_pos _))
  · rw [Nat.mod_eq_of_lt (a := _ + _) (by omega)]
    exact (Nat.mod_le _ _).trans_lt hv

theorem Packer.flush_accBounded {k : Packer} (h : k.acc.toNat < 2 ^ k.cnt.toNat) :
    k.flush.acc.toNat < 2 ^ k.flush.cnt.toNat := by
  unfold Packer.flush
  split
  · exact h
  · simp

/-- A command keeps R55 item 1: only the packer commands write `ACC` and `CNT`. -/
theorem Effect.keeps_accBounded {s u : State} {i : Instr} (he : Effect s i u) (h : s.accBounded) : u.accBounded := by
  cases he with
  | pkBit p => exact Packer.bitStep_accBounded h p
  | pkBits n d hn => exact Packer.bitsStep_accBounded h hn.2 d
  | pkFlush => exact Packer.flush_accBounded h
  | pkClr => exact Nat.one_pos
  | _ => exact h

/-- A command keeps R55 item 2: only the unpacker commands write `UIDX` and the counts. -/
theorem Effect.keeps_bitsCounted {s u : State} {i : Instr} (he : Effect s i u) (h : s.bitsCounted) : u.bitsCounted := by
  cases he with
  | upBitNew b rest hi hs =>
    simp only [State.bitsCounted, hi] at h
    simp [State.bitsCounted, Unpacker.stepNew, h]
    bv_omega
  | upBitSame hi =>
    have hlt : s.up.uidx.val < 8 := by omega
    have hidx : (s.up.uidx + 1).val = s.up.uidx.val + 1 := by simp [Fin.val_add]; omega
    have hrest : BitVec.ofNat 32 (8 - s.up.uidx.val) = BitVec.ofNat 32 (8 - (s.up.uidx.val + 1)) + 1 := by
      rw [show 8 - s.up.uidx.val = 8 - (s.up.uidx.val + 1) + 1 by omega, BitVec.ofNat_add]; rfl
    simp only [State.bitsCounted, State.withUp_up, Unpacker.stepSame, hidx]
    rw [show s.up.bits = _ from h, hrest]
    ring
  | upClr => simp [State.bitsCounted, Unpacker.clear]
  | _ => exact h

/-- A command keeps R55 item 3: only `FI_CFG` writes the dimensions, and both are nonzero then. -/
theorem Effect.keeps_resConfigured {s u : State} {i : Instr} (he : Effect s i u) (h : s.resConfigured) :
    u.resConfigured := by
  cases he with
  | fiCfg a b ha hb =>
    have hlt : a.toNat * b.toNat < 2 ^ 13 * 2 ^ 13 := Nat.mul_lt_mul'' a.isLt b.isLt
    refine ⟨?_, iff_of_false ha hb⟩
    simpa [FrameIndexer.configure] using hlt
  | _ => exact h

/-- A command keeps R55 item 4: `FI_CFG` and a `WR` of `FI_NBYTES` make the count 0, and `FI_COUNT` makes it fresh. -/
theorem Effect.keeps_framesFresh {s u : State} {i : Instr} (he : Effect s i u) (h : s.framesFresh) : u.framesFresh := by
  cases he with
  | fiCfg | wrNbytes => exact .inl rfl
  | fiCount hres hpos hlt =>
    refine .inr ⟨hres, ?_⟩
    have hr : s.fi.res.toNat ≠ 0 := fun h0 => hres (BitVec.eq_of_toNat_eq h0)
    have hf : s.fi.fullFrames = 8 * s.fi.nbytes.toNat / s.fi.res.toNat := if_neg hr
    simpa [← hf] using hlt
  | _ => exact h

/-- Clearing `CMD_ERR` clears the record (R123, R238). -/
theorem State.recover_recordClean {s : State} (h : s.recordClean) (m : BitVec 3) : (s.recover m).recordClean := by
  intro hc
  cases hm : m.getLsbD 0 with
  | true => exact ⟨if_pos hm, if_pos hm⟩
  | false =>
    have hs : s.status.getLsbD 0 = false := by simp_all [clearStatus]
    exact ⟨(if_neg (ne_true_of_eq_false hm)).trans (h hs).1, (if_neg (ne_true_of_eq_false hm)).trans (h hs).2⟩

/-- A command keeps R37: only a W1C write of `STATUS` clears `CMD_ERR`. -/
theorem Effect.keeps_recordClean {s u : State} {i : Instr} (he : Effect s i u) (h : s.recordClean) : u.recordClean := by
  cases he with
  | wrStatus => exact State.recover_recordClean h _
  | _ => exact h

/-- R55 items 5 to 7, of the scheduler's registers. -/
structure Scheduler.Inv (sc : Scheduler) : Prop where
  debt : -2 ^ 31 ≤ sc.debt.toInt ∧ sc.debt.toInt ≤ 0
  range : sc.st.running = true →
    sc.fidx.toNat < sc.nframes.toNat ∧ 1 ≤ sc.nframes.toNat ∧ 1 ≤ sc.interval.toNat
  coded : sc.fcode ≠ 0 ↔ sc.st = .fault

theorem State.Inv.sched {s : State} (h : s.Inv) : s.sc.Inv := ⟨h.debtNonpositive, h.runInRange, h.faultCoded⟩

/-- A stopped scheduler takes any `SC_INTERVAL` and `SC_NFRAMES`. -/
theorem Scheduler.Inv.config {sc : Scheduler} (h : sc.Inv) (hst : sc.st.running = false) (x y : Word) :
    Scheduler.Inv { sc with interval := x, nframes := y } :=
  ⟨h.debt, fun hr => absurd hr (by simp [hst]), h.coded⟩

theorem Scheduler.start_inv {sc : Scheduler} (hint : sc.interval ≠ 0) (hn : sc.nframes ≠ 0) : sc.start.Inv where
  debt := by simp [Scheduler.start]
  range _ := by
    have hint' : sc.interval.toNat ≠ 0 := fun h => hint (BitVec.eq_of_toNat_eq h)
    have hn' : sc.nframes.toNat ≠ 0 := fun h => hn (BitVec.eq_of_toNat_eq h)
    simp [Scheduler.start]
    omega
  coded := by simp [Scheduler.start]

/-- A command keeps R55 items 5 to 7. -/
theorem Effect.keeps_sched {s u : State} {i : Instr} (he : Effect s i u) (h : s.sc.Inv) : u.sc.Inv := by
  cases he with
  | wrInterval h' reg imm hr hst | wrNframes h' reg imm hr hst => exact h.config hst _ _
  | scStart hst hint hn => exact Scheduler.start_inv hint hn
  | _ => exact h

theorem Effect.keeps_inv {s u : State} {i : Instr} (he : Effect s i u) (h : s.Inv) : u.Inv :=
  have hsc := he.keeps_sched h.sched
  ⟨he.keeps_accBounded h.accBounded, he.keeps_bitsCounted h.bitsCounted, he.keeps_resConfigured h.resConfigured,
    he.keeps_framesFresh h.framesFresh, hsc.debt, hsc.range, hsc.coded, he.keeps_recordClean h.recordClean⟩

/-- An error sets `CMD_ERR`, and writes nothing else that R55 speaks of (R232, R233). -/
theorem State.Inv.raise {s : State} (h : s.Inv) (w : Word) (e : CommandError) : (s.raise w e).Inv :=
  { h with
    recordClean := fun hc => absurd hc (by
      rw [Bool.not_eq_false, raise_status_getLsbD s w e (by decide)]
      exact .inr rfl) }

theorem CommandPhase.keeps_inv {s u : State} (hu : CommandPhase s u) (h : s.Inv) : u.Inv := by
  cases hu with
  | idle => exact h
  | illegal | raised => exact h.raise _ _
  | done w i u d ha hd he => exact { he.keeps_inv h with }

/-- No command changes the registers of a running scheduler (R201). -/
theorem Effect.sc_eq_of_running {s u : State} {i : Instr} (he : Effect s i u) (hr : s.sc.st.running = true) :
    u.sc = s.sc := by
  cases he with
  | wrInterval _ _ _ _ hst | wrNframes _ _ _ _ hst | scStart hst => simp [hst] at hr
  | _ => rfl

theorem CommandPhase.sc_eq_of_running {s u : State} (hu : CommandPhase s u) (hr : s.sc.st.running = true) :
    u.sc = s.sc := by
  cases hu with
  | done w i u d ha hd he => exact he.sc_eq_of_running hr
  | _ => rfl

/-- At the edge the scheduler's registers are its step's while it runs, and the command's otherwise (R265). -/
theorem CommandPhase.mergeSched_eq {s u : State} (hu : CommandPhase s u) :
    s.mergeSched u = if s.sc.st.running then s.schedStep.sc else u.sc := by
  unfold State.mergeSched
  split
  · next hr =>
    obtain ⟨hi, hn⟩ := schedStep_config s.sc s.now s.inputs
    rw [hu.sc_eq_of_running hr, ← hi, ← hn]
    rfl
  · rfl

theorem Scheduler.Inv.fcode_eq_zero {sc : Scheduler} (h : sc.Inv) (hr : sc.st.running = true) : sc.fcode = 0 := by
  by_contra hc
  simp [h.coded.mp hc, SchedState.running] at hr

theorem Scheduler.Inv.enterFault {sc : Scheduler} (h : sc.Inv) (f : SchedFault) : (sc.enterFault f).Inv where
  debt := h.debt
  range hr := nomatch hr
  coded := by cases f <;> simp [Scheduler.enterFault, SchedFault.code]

/-- The end of a render leaves a debt from `-2^31` to 0, or faults (R208, R209). -/
theorem Scheduler.Inv.rendered {sc : Scheduler} (h : sc.Inv) (hr : sc.st.running = true) (now : Word) :
    (sc.rendered now).sc.Inv := by
  have hf := h.fcode_eq_zero hr
  rcases rendered_cases sc now with ⟨-, hx⟩ | ⟨-, hx⟩ | ⟨hlo, hhi, hx⟩ <;> rw [hx]
  · exact ⟨by simp, fun _ => h.range hr, by simp [hf]⟩
  · exact h.enterFault _
  · refine ⟨?_, fun _ => h.range hr, by simp [hf]⟩
    rw [BitVec.toInt_ofInt_eq_self (by decide) (by omega) (by omega)]
    omega

/-- The end of a sleep goes on to a frame below `SC_NFRAMES`, or is done (R212). -/
theorem Scheduler.Inv.sleepOver {sc : Scheduler} (h : sc.Inv) (hr : sc.st.running = true) : sc.sleepOver.sc.Inv := by
  have hf := h.fcode_eq_zero hr
  have hrange := h.range hr
  unfold Scheduler.sleepOver
  split
  · exact ⟨h.debt, fun hd => (nomatch hd), by simp [hf]⟩
  · have := sc.nframes.isLt
    refine ⟨h.debt, fun _ => ?_, by simp [hf]⟩
    simp [BitVec.toNat_add]
    omega

/-- The scheduler's step keeps R55 items 5 to 7 (R203). -/
theorem Scheduler.Inv.step {sc : Scheduler} (h : sc.Inv) (now : Word) (i : Inputs) : (sc.step now i).sc.Inv := by
  unfold Scheduler.step
  cases hst : sc.st with
  | idle | done | fault => exact h
  | waitReady =>
    have hr : sc.st.running = true := by simp [hst, SchedState.running]
    dsimp only
    split
    · exact ⟨h.debt, fun _ => h.range hr, by simp [h.fcode_eq_zero hr]⟩
    · exact h
  | render =>
    have hr : sc.st.running = true := by simp [hst, SchedState.running]
    dsimp only
    split
    · exact h.enterFault _
    · split
      · exact h.rendered hr now
      · exact h
  | sleep =>
    have hr : sc.st.running = true := by simp [hst, SchedState.running]
    dsimp only
    split
    · exact h.sleepOver hr
    · split
      · exact ⟨h.debt, fun _ => h.range hr, by simp [h.fcode_eq_zero hr]⟩
      · exact h

/-- The edge keeps the invariants that the command phase kept. -/
theorem CommandPhase.closeCycle_inv {s u : State} (hu : CommandPhase s u) (h : s.Inv) : (s.closeCycle u).Inv := by
  have hui := hu.keeps_inv h
  have hsc : (s.closeCycle u).sc.Inv := by
    rw [State.closeCycle_sc, hu.mergeSched_eq]
    split
    · exact h.sched.step s.now s.inputs
    · exact hui.sched
  refine { hui with
    debtNonpositive := hsc.debt, runInRange := hsc.range, faultCoded := hsc.coded, recordClean := fun hc => ?_ }
  rw [State.closeCycle_status, setStatus, BitVec.getLsbD_or, Bool.or_eq_false_iff] at hc
  exact hui.recordClean hc.1

/-! Commands and the inputs still scheduled -/

/-- The inputs of the coming cycles replaced, and nothing else. -/
def State.withSchedule (s : State) (l : List Inputs) : State := { s with schedule := l }

@[simp] theorem State.withSchedule_source (s : State) (l : List Inputs) : (s.withSchedule l).source = s.source := rfl

/-- The command frame passes the schedule through, where the holds do not depend on it. -/
theorem runCommand_withSchedule {s : State} {l : List Inputs} {i : Instr} {r r' : Except CommandError (State × Word)}
    (hh : ∀ op, (s.withSchedule l).held op = s.held op) (hr : r' = r.map fun (u, d) => (u.withSchedule l, d)) :
    (s.withSchedule l).runCommand i r' = mapNext (·.withSchedule l) (s.runCommand i r) := by
  subst hr
  unfold State.runCommand
  rw [hh]
  split
  · rfl
  · rcases r with e | ⟨u, d⟩ <;> rfl

theorem writeReg_withSchedule (s : State) (l : List Inputs) (h : BitVec 1) (imm : BitVec 16) (r : RegName) :
    (s.withSchedule l).writeReg h imm r = (s.writeReg h imm r).map (·.withSchedule l) := by
  cases r with
  | status => simp only [State.writeReg, State.writeStatus, Except.map]; split <;> rfl
  | irqEn => simp only [State.writeReg, State.writeIrqEn, Except.map]; split <;> rfl
  | _ => rfl

/-- No command reads the schedule but by its holds. -/
theorem exec_withSchedule {s : State} {l : List Inputs} (hh : ∀ op, (s.withSchedule l).held op = s.held op) (i : Instr) :
    exec i (s.withSchedule l) = mapNext (·.withSchedule l) (exec i s) := by
  cases i with
  | nop | pkBit | pkFlush | pkClr | upClr =>
    simp only [exec, execNop, execPkBit, execPkFlush, execPkClr, execUpClr]
    exact runCommand_withSchedule hh rfl
  | rd reg =>
    refine runCommand_withSchedule hh ?_
    cases RegName.ofIndex reg with
    | none => rfl
    | some r => cases r <;> rfl
  | wr h reg imm =>
    refine runCommand_withSchedule hh ?_
    cases RegName.ofIndex reg with
    | none => rfl
    | some r =>
      simp only [writeReg_withSchedule, apply_ite (Except.map _)]
      cases s.writeReg h imm r <;> rfl
  | pkBits | fiCfg | fiAddr | fiSplit | fiCount | scStart =>
    refine runCommand_withSchedule hh ?_
    simp only [apply_ite (Except.map _)]
    rfl
  | upBit =>
    simp only [exec, execUpBit, apply_ite (mapNext _)]
    refine if_congr Iff.rfl ?_ (runCommand_withSchedule hh rfl)
    rw [State.withSchedule_source]
    cases s.source with
    | nil => rfl
    | cons b rest => exact runCommand_withSchedule hh rfl

/-- The renderer's inputs are read in `RENDER` alone (R28, R203). -/
theorem schedStep_ignores_renderer {sc : Scheduler} (h : sc.st ≠ .render) (now : Word) (i : Inputs) (done err : Bool) :
    sc.step now { i with rdDone := done, rdErr := err } = sc.step now i := by
  unfold Scheduler.step
  cases hst : sc.st with
  | render => exact absurd hst h
  | _ => rfl

/-- Where the scheduler takes the same step, the edge is the same, whatever `rd_done` and `rd_err` are. -/
theorem closeCycle_ignores_renderer {s : State} (h : s.sc.st ≠ .render) (i : Inputs) (rest : List Inputs)
    (done err : Bool) (u : State) :
    (s.withSchedule ({ i with rdDone := done, rdErr := err } :: rest)).closeCycle u =
      (s.withSchedule (i :: rest)).closeCycle u := by
  have hsched : (s.withSchedule ({ i with rdDone := done, rdErr := err } :: rest)).schedStep =
      (s.withSchedule (i :: rest)).schedStep := schedStep_ignores_renderer h s.now i done err
  unfold State.closeCycle State.mergeSched
  rw [hsched]
  rfl

/-- Outside `RENDER` a cycle does not depend on `rd_done` and `rd_err` (R28). -/
theorem step_ignores_renderer {s : State} (h : s.sc.st ≠ .render) (i : Inputs) (rest : List Inputs) (done err : Bool) :
    step (s.withSchedule ({ i with rdDone := done, rdErr := err } :: rest)) = step (s.withSchedule (i :: rest)) := by
  let t := s.withSchedule (i :: rest)
  let l := { i with rdDone := done, rdErr := err } :: rest
  have hclose : ∀ u, (t.withSchedule l).closeCycle u = t.closeCycle u := closeCycle_ignores_renderer h i rest done err
  change step (t.withSchedule l) = step t
  cases hr : i.rst with
  | true =>
    have hr : t.inputs.rst = true := hr
    rw [step_reset (s := t.withSchedule l) hr, step_reset hr]
    rfl
  | false =>
    have hr : t.inputs.rst = false := hr
    cases ha : t.accepted with
    | none =>
      rw [step_idle (s := t.withSchedule l) hr ha, step_idle hr ha, hclose]
      rfl
    | some w =>
      cases hd : decode w with
      | error why =>
        rw [step_illegal (s := t.withSchedule l) hr ha hd, step_illegal hr ha hd, hclose]
        rfl
      | ok j =>
        rw [step_command (s := t.withSchedule l) hr ha hd, step_command hr ha hd,
          exec_withSchedule (s := t) (l := l) fun _ => rfl]
        cases exec j t with
        | next u => exact congrArg _ (hclose _)
        | fault r => rfl
        | refused r => rfl

end Sys2Proof.Machine

/-! ## The obligations -/

namespace Sys2Proof.Claims
open Sys2Proof.Machine

/-- Settles O42: in a cycle without reset a command that is not ready is held, and a held command answers its start state. -/
theorem heldCommandChangesNothing : Obligations.HeldCommandChangesNothing := by
  intro i s hrst hn
  have hh : s.held (opcodeOf (encode i)) ≠ false := fun hh => hn ((ready_iff s _).mpr ⟨hrst, hh⟩)
  exact exec_held (Bool.not_eq_false _ ▸ hh)

/-- Raising an error of code `c` is what the spec calls an error of code `c` (R232, R233). -/
theorem raise_eq_errored (s : State) (w : Word) (e : CommandError) : s.raise w e = errored s w.toNat e.code.toNat := by
  cases e <;> simp [State.raise, State.recordError, State.respond, errored, State.cmdErr, CommandError.code, setStatus,
    statusCmdErr]

theorem raise_rsp_data (s : State) (w : Word) (e : CommandError) : (s.raise w e).rsp.data.toNat = e.code.toNat := by
  cases e <;> rfl

/-- Settles O43: an accepted command responds without error after its writes, or raises its error. -/
theorem everyCommandResponds : Obligations.EveryCommandResponds := by
  intro i s hr
  rcases exec_ready ((ready_iff s _).mp hr).2 with ⟨u, d, -, hx⟩ | ⟨e, -, hx⟩
  · exact ⟨_, hx, rfl, .inl rfl⟩
  · exact ⟨_, hx, rfl, .inr (by rw [raise_rsp_data, raise_eq_errored])⟩

/-- Settles O50: a cycle that accepts a word closes around that word's response, and any other around its own state. -/
theorem commandPortAcceptsOrHolds : Obligations.CommandPortAcceptsOrHolds := by
  refine fun s => ⟨fun hrst w rest hp hr => ?_, fun hrst hn => ?_, fun hrst => ⟨_, step_reset hrst, rfl⟩⟩
  · have ha := accepted_of_ready hp hr
    obtain ⟨u, hu, hs⟩ := step_running hrst
    refine ⟨_, hs, by simp [ha, hp.2], ?_⟩
    rw [State.closeCycle_rsp, rspTaken_eq hrst, hr.2.1]
    exact hu.responds ha
  · have ha := accepted_eq_none_iff.mpr hn
    obtain ⟨u, hu, hs⟩ := step_running hrst
    cases hu.eq_of_not_accepted ha
    refine ⟨_, hs, ?_, fun hv => ?_⟩
    · have hc := closes_closeCycle (u := s) hrst fun _ => ⟨rfl, rfl⟩
      rwa [ha] at hc
    · rw [closeCycle_rsp_cases, rspTaken_eq hrst, hv]; rfl

/-- Settles O52: the edge adds `tick` to `NOW`, whatever the command phase did. -/
theorem nowCountsTicks : Obligations.NowCountsTicks := by
  intro s hrst
  obtain ⟨u, -, hs⟩ := step_running hrst
  refine ⟨_, hs, ?_⟩
  simp [zext32_bit]

/-- Settles O53: a waiting response holds every command, so the cycle runs none. -/
theorem responseStaysUntilTaken : Obligations.ResponseStaysUntilTaken := by
  intro s
  have hiff : s.rspValid = true ↔ s.rsp.v = true ∧ s.inputs.rst = false := by simp [State.rspValid]
  refine ⟨hiff, rfl, fun hv => ?_⟩
  obtain ⟨hv, hrst⟩ := hiff.mp hv
  have ha : s.accepted = none := accepted_eq_none_iff.mpr fun w rest _ hr => by simp [hr.2.1] at hv
  obtain ⟨u, hu, hs⟩ := step_running hrst
  cases hu.eq_of_not_accepted ha
  refine ⟨_, hs, ?_⟩
  rw [closeCycle_rsp_cases, rspTaken_eq hrst, hv, Bool.true_and]

/-- A bit vector is not 0 exactly when it has a bit that is 1. -/
theorem bitVec_ne_zero_iff {n : Nat} (v : BitVec n) : v ≠ 0 ↔ ∃ i < n, v.getLsbD i = true := by
  constructor
  · contrapose!
    exact fun h => BitVec.eq_of_getLsbD_eq fun i hi => by simpa using h i hi
  · rintro ⟨i, -, hi⟩ rfl
    simp at hi

/-- Settles O46: `irq` is high when the enabled flags are not all 0. -/
theorem irqLevel : Obligations.IrqLevel := by
  intro s
  simp only [State.irq, Machine.irqLevel, Bool.and_eq_true, bne_iff_ne, Bool.not_eq_true', bitVec_ne_zero_iff,
    BitVec.getLsbD_and]
  exact and_comm

/-- Settles O57: each invariant is a fact about R54's values. -/
theorem invariantAtReset : Obligations.InvariantAtReset :=
  ⟨by decide, by decide, by decide, by decide, by decide, by decide, by decide, by decide⟩

/-- Settles O47: a flag of the next state is set by the command phase or by the scheduler's step, whichever clears it. -/
theorem statusSetWinsOverClear : Obligations.StatusSetWinsOverClear := by
  intro s t hrst hs
  obtain ⟨hr, -⟩ | ⟨-, u, hu, rfl⟩ := step_phases hs
  · simp [hrst] at hr
  have flag {k : Nat} (hk : k < 3) : (s.closeCycle u).status.getLsbD k = true ↔
      ((s.status.getLsbD k = true ∧ ¬ Clears s k) ∨ (k = 0 ∧ s.accepted.isSome ∧ u.rsp.err = true)) ∨
        (k = 1 ∧ DoneEvent s) ∨ (k = 2 ∧ FaultEvent s) := by
    simp [setStatus, schedStep_set5 s hk, hu.status_iff hk]
  have hacc : (s.accepted.isSome = true ∧ u.rsp.err = true) ↔
      ∃ w rest, Presents s w rest ∧ Ready s w ∧ u.rsp.err = true := by
    simp only [Option.isSome_iff_exists, accepted_eq_some_iff, ← and_assoc, exists_and_right]
  refine ⟨?_, ?_, ?_⟩
  · rw [flag (by decide)]; simp
  · rw [flag (by decide)]; simp
  · rw [flag (by decide), State.closeCycle_rsp, ← hacc]; simp

/-- Settles O54: the edge alone appends to `SINK`, and no packer command is accepted while a byte waits. -/
theorem sinkTakesOutputByte : Obligations.SinkTakesOutputByte := by
  intro s t hs
  refine ⟨by simp [State.boValid], rfl, ?_⟩
  obtain ⟨hrst, rfl⟩ | ⟨hrst, u, hu, rfl⟩ := step_phases hs
  · simp [hrst]
  · simp only [State.closeCycle_sink, closeCycle_pk_cases, boTaken_eq hrst, Bool.and_eq_true, State.boData]
    refine ⟨fun hv _ hb => by simp [hv, hb], fun hn => if_neg fun h => hn ⟨h.1, hrst, h.2⟩, fun hv _ hb => ?_⟩
    simp [hb, hu.pk_eq hv]

/-- Settles O55: the command phase consumes a byte exactly where `bi_ready = 1`, and a reset edge consumes none. -/
theorem sourceConsumedByUpBit : Obligations.SourceConsumedByUpBit := by
  intro s t hs
  have hiff : s.biReady = true ↔ (∃ rest, Presents s 0x40000000#32 rest) ∧ Ready s 0x40000000#32 ∧ s.up.uidx = 8 := by
    rw [biReady_iff, accepted_eq_some_iff, exists_and_right, and_assoc]
  refine ⟨hiff, ?_⟩
  obtain ⟨hrst, rfl⟩ | ⟨-, u, hu, rfl⟩ := step_phases hs
  · refine ⟨fun h => ?_, fun _ => rfl⟩
    obtain ⟨-, hr, -⟩ := hiff.mp h
    exact absurd hrst (by simp [hr.1])
  · obtain ⟨hb, hsrc⟩ | ⟨hb, hsrc⟩ := hu.source_cases
    · obtain ⟨-, hr, hi⟩ := hiff.mp hb
      have hh := ((ready_iff s _).mp hr).2
      refine ⟨fun _ => ⟨?_, _, ?_, hsrc, rfl⟩, fun h => absurd hb (by simp [h])⟩
      · have : opcodeOf 0x40000000#32 = 0x10#6 := rfl
        simp_all
      · simp [State.biData, hsrc]
    · exact ⟨fun h => absurd hb (by simp [h]), fun _ => hsrc⟩

/-- A reset edge leaves R54's registers, and the invariants speak of nothing else (R260). -/
theorem resetEdge_inv (s : State) : s.resetEdge.Inv := { invariantAtReset with }

/-- Settles O58: R54's values meet the invariants, and a cycle's command phase and edge keep them. -/
theorem stepKeepsInvariant : Obligations.StepKeepsInvariant := by
  intro s t h hs
  obtain ⟨-, rfl⟩ | ⟨-, u, hu, rfl⟩ := step_phases hs
  · exact resetEdge_inv s
  · exact hu.closeCycle_inv h

/-- Settles O41: outside `RENDER` the scheduler's step is the same, and nothing else reads the renderer's inputs. -/
theorem rendererAnswersOnlyRequests : Obligations.RendererAnswersOnlyRequests := by
  intro s
  refine ⟨by simp [State.rdReq], rfl, fun hst i rest done err hsch => ?_⟩
  have hs : s.withSchedule (i :: rest) = s := by rw [← hsch]; rfl
  exact (step_ignores_renderer hst i rest done err).trans (congrArg step hs)

end Sys2Proof.Claims

/-! ## The rows of R100's table, and the decoder -/

namespace Sys2Proof
open Sys2Proof.Claims

/-- The command of `i`'s row whose operands are read from the fields of `w` (R92 to R99). -/
def Instr.withFields (i : Instr) (w : Word) : Instr :=
  match i with
  | .rd _ => .rd (field w 16 6)
  | .wr _ _ _ => .wr (field w 22 1) (field w 16 6) (field w 0 16)
  | .pkBit _ => .pkBit (field w 0 1)
  | .pkBits _ _ => .pkBits (field w 8 4) (field w 0 8)
  | .fiCfg _ _ => .fiCfg (field w 13 13) (field w 0 13)
  | .fiAddr _ _ => .fiAddr (field w 13 13) (field w 0 13)
  | i => i

@[simp] theorem pattern_withFields (i : Instr) (w : Word) : (i.withFields w).pattern = i.pattern := by cases i <;> rfl

@[simp] theorem mask_withFields (i : Instr) (w : Word) : (i.withFields w).mask = i.mask := by cases i <;> rfl

/-- The fields of a command's word are the command's operands (R92 to R99). -/
@[simp] theorem withFields_encode (i : Instr) : i.withFields (encode i) = i := by
  cases i <;> simp only [Instr.withFields, Instr.rd.injEq, Instr.wr.injEq, Instr.pkBit.injEq, Instr.pkBits.injEq,
    Instr.fiCfg.injEq, Instr.fiAddr.injEq, BitVec.toNat_eq, toNat_field, toNat_encode, wordOf, wrWord]
  case rd | wr | pkBit | pkBits | fiCfg | fiAddr => omega

/-- A field whose bits are all fixed by a row's mask has the row's value in every word of the row. -/
theorem field_of_match {w m p : Word} (h : w &&& m = p) {lo len : Nat} {v : BitVec len}
    (hm : field m lo len = BitVec.allOnes len) (hp : field p lo len = v) : field w lo len = v := by
  subst h
  rw [← hp]
  simp only [field] at hm ⊢
  rw [BitVec.extractLsb'_and, hm, BitVec.and_allOnes]

/-- A word that matches a row of R100's table is legal: its opcode is the row's and its reserved fields are zero. -/
theorem decode_of_match {i : Instr} {w : Word} (h : w &&& i.mask = i.pattern) : decode w = .ok (i.withFields w) := by
  cases i <;> dsimp only [Instr.mask, Instr.pattern] at h
  case rd =>
    have hop : opcodeOf w = 0x01 := field_of_match h (by decide) (by decide)
    have h22 : field w 22 4 = 0 := field_of_match h (by decide) (by decide)
    have h0 : field w 0 16 = 0 := field_of_match h (by decide) (by decide)
    simp [decode, hop, h22, h0, legalIf, Instr.withFields]
  case wr =>
    have hop : opcodeOf w = 0x02 := field_of_match h (by decide) (by decide)
    have h23 : field w 23 3 = 0 := field_of_match h (by decide) (by decide)
    simp [decode, hop, h23, legalIf, Instr.withFields]
  case pkBit =>
    have hop : opcodeOf w = 0x08 := field_of_match h (by decide) (by decide)
    have h1 : field w 1 25 = 0 := field_of_match h (by decide) (by decide)
    simp [decode, hop, h1, legalIf, Instr.withFields]
  case pkBits =>
    have hop : opcodeOf w = 0x09 := field_of_match h (by decide) (by decide)
    have h12 : field w 12 14 = 0 := field_of_match h (by decide) (by decide)
    simp [decode, hop, h12, legalIf, Instr.withFields]
  case fiCfg =>
    have hop : opcodeOf w = 0x18 := field_of_match h (by decide) (by decide)
    simp [decode, hop, Instr.withFields]
  case fiAddr =>
    have hop : opcodeOf w = 0x19 := field_of_match h (by decide) (by decide)
    simp [decode, hop, Instr.withFields]
  all_goals
    rw [show 0xFFFFFFFF#32 = BitVec.allOnes 32 from rfl, BitVec.and_allOnes] at h
    subst h
    rfl

/-- A command's word has the bits that R100's table fixes for its row. -/
theorem encode_and_mask (i : Instr) : encode i &&& i.mask = i.pattern :=
  match i with
  | .nop => Laws.TableWord.nop
  | .rd reg => Laws.TableWord.rd reg
  | .wr h reg imm => Laws.TableWord.wr h reg imm
  | .pkBit p => Laws.TableWord.pkBit p
  | .pkBits n d => Laws.TableWord.pkBits n d
  | .pkFlush => Laws.TableWord.pkFlush
  | .pkClr => Laws.TableWord.pkClr
  | .upBit => Laws.TableWord.upBit
  | .upClr => Laws.TableWord.upClr
  | .fiCfg a b => Laws.TableWord.fiCfg a b
  | .fiAddr a b => Laws.TableWord.fiAddr a b
  | .fiSplit => Laws.TableWord.fiSplit
  | .fiCount => Laws.TableWord.fiCount
  | .scStart => Laws.TableWord.scStart

/-- A command's word matches its row, so it decodes to the row with the word's fields, which are the command's operands. -/
@[simp] theorem decode_encode (i : Instr) : decode (encode i) = .ok i := by
  rw [decode_of_match (encode_and_mask i), withFields_encode]

/-- A word decodes to a command exactly when it is the command's word (R100). -/
theorem decode_eq_ok_iff {w : Word} {i : Instr} : decode w = .ok i ↔ encode i = w :=
  ⟨encode_of_decode, fun h => h ▸ decode_encode i⟩

/-- A word decodes to a command of `i`'s row exactly when it matches the row (R100). -/
theorem exists_decode_iff_match (i : Instr) (w : Word) :
    (∃ j, decode w = .ok j ∧ j.pattern = i.pattern ∧ j.mask = i.mask) ↔ w &&& i.mask = i.pattern := by
  constructor
  · rintro ⟨j, hd, hp, hm⟩
    rw [← encode_of_decode hd, ← hp, ← hm, encode_and_mask]
  · exact fun h => ⟨i.withFields w, decode_of_match h, pattern_withFields i w, mask_withFields i w⟩

/-- Each command has its row in R100's table. -/
theorem row_mem_matchTable (i : Instr) : (i.pattern.toNat, i.mask.toNat) ∈ matchTable := by
  cases i <;> simp [Instr.pattern, Instr.mask, matchTable]

/-- Each row of R100's table is the row of a command. -/
theorem exists_instr_of_mem_matchTable :
    ∀ r ∈ matchTable, ∃ i : Instr, i.pattern = BitVec.ofNat 32 r.1 ∧ i.mask = BitVec.ofNat 32 r.2 := by
  simp only [matchTable, List.cons_append, List.nil_append, List.forall_mem_cons]
  exact ⟨⟨.nop, rfl, rfl⟩, ⟨.rd 0, rfl, rfl⟩, ⟨.wr 0 0 0, rfl, rfl⟩, ⟨.pkBit 0, rfl, rfl⟩, ⟨.pkBits 0 0, rfl, rfl⟩,
    ⟨.pkFlush, rfl, rfl⟩, ⟨.pkClr, rfl, rfl⟩, ⟨.upBit, rfl, rfl⟩, ⟨.upClr, rfl, rfl⟩, ⟨.fiCfg 0 0, rfl, rfl⟩,
    ⟨.fiAddr 0 0, rfl, rfl⟩, ⟨.fiSplit, rfl, rfl⟩, ⟨.fiCount, rfl, rfl⟩, ⟨.scStart, rfl, rfl⟩, List.forall_mem_nil _⟩

/-- Two rows of R100's table differ in a bit that both masks fix. -/
theorem matchTable_pairwise_differ :
    matchTable.Pairwise fun r q =>
      BitVec.ofNat 32 r.1 &&& BitVec.ofNat 32 q.2 ≠ BitVec.ofNat 32 q.1 &&& BitVec.ofNat 32 r.2 := by
  decide

end Sys2Proof

/-! ## The obligations on the encoding -/

namespace Sys2Proof.Claims
open Sys2Proof.Machine

/-- Settles O1: a command's word matches the command's row of R100's table, and its fields are the operands. -/
theorem decodeOfEncode : Obligations.DecodeOfEncode := decode_encode

/-- Settles O2: the decoder reads every bit of a legal word, as its opcode, as an operand or as a reserved zero. -/
theorem encodeOfDecode : Obligations.EncodeOfDecode := fun _ _ => encode_of_decode

/-- Settles O3: a legal word is its command's word, which has the row's fixed bits; a word with a row's fixed bits is legal; and
two rows differ in a bit that both fix. -/
theorem legalWordsMatchTable : Obligations.LegalWordsMatchTable := by
  refine fun w => ⟨fun i => ?_, fun r hr => ?_, fun i hd => ?_, ?_⟩
  · rw [decode_eq_ok_iff, BitVec.toNat_eq, toNat_encode, eq_comm]
  · obtain ⟨i, hp, hm⟩ := exists_instr_of_mem_matchTable r hr
    rw [← hp, ← hm]
    exact exists_decode_iff_match i w
  · refine ⟨_, row_mem_matchTable i, ?_⟩
    simpa using (exists_decode_iff_match i w).mp ⟨i, hd, rfl, rfl⟩
  · refine matchTable_pairwise_differ.imp fun {r q} hne hw => hne ?_
    rw [← hw.1, ← hw.2, BitVec.and_assoc, BitVec.and_assoc, BitVec.and_comm (BitVec.ofNat 32 r.2)]

/-- Settles O4: the decoder computes each example. -/
theorem exampleWordsDecode : Obligations.ExampleWordsDecode := by
  unfold Obligations.ExampleWordsDecode
  decide

/-- Settles O49: the cycle closes around the state in which `ILLEGAL` is raised, and no response was waiting to be taken. -/
theorem stepRefusesIllegalWord : Obligations.StepRefusesIllegalWord := by
  intro s w rest hp hr hill
  have ha := accepted_of_ready hp hr
  obtain ⟨hrst, hv, -⟩ := hr
  cases hd : decode w with
  | ok i => exact absurd hd (hill i)
  | error why =>
    refine ⟨_, step_illegal hrst ha hd, ?_, ?_⟩
    · have hc := closes_closeCycle (u := s.raise w .illegal) hrst fun _ => ⟨rfl, rfl⟩
      have he : s.raise w .illegal = errored s w.toNat 1 := raise_eq_errored s w .illegal
      rw [ha, hp.2] at hc
      rwa [← he]
    · rw [closeCycle_rsp_cases, rspTaken_eq hrst, hv]
      rfl

end Sys2Proof.Claims

/-! ## The register map, and the commands that access it -/

namespace Sys2Proof.Machine
open Sys2Proof.Claims

/-! The index of a register (R50 to R52) -/

@[simp] theorem RegName.ofIndex_index (r : RegName) : RegName.ofIndex r.index = some r := by cases r <;> rfl

theorem RegName.index_of_ofIndex {reg : BitVec 6} {r : RegName} (h : RegName.ofIndex reg = some r) : r.index = reg := by
  unfold RegName.ofIndex at h
  split at h <;> cases h
  all_goals exact BitVec.eq_of_toNat_eq (Eq.symm ‹_›)

/-- R51's unallocated indices are those of no register. -/
theorem RegName.ofIndex_of_unallocated {reg : BitVec 6} (h : Unallocated reg.toNat) : RegName.ofIndex reg = none := by
  cases hr : RegName.ofIndex reg with
  | none => rfl
  | some r =>
    rw [← RegName.index_of_ofIndex hr] at h
    cases r <;> simp [Unallocated, RegName.index] at h

/-- An index that `WR` may not write has no register, or a read-only or derived one (R52). -/
theorem RegName.access_of_not_writable {reg : BitVec 6} {r : RegName} (h : ¬ Writable reg.toNat)
    (hr : RegName.ofIndex reg = some r) : r.access = .ro ∨ r.access = .derived := by
  rw [← RegName.index_of_ofIndex hr] at h
  cases r <;> simp [Writable, RegName.index, RegName.access] at h ⊢

/-! The value of a register (R50, R185) -/

theorem toNat_fiBaddr (g : Word) : (fiBaddr g).toNat = g.toNat / 8 := by
  simp [fiBaddr, Nat.shiftRight_eq_div_pow]

theorem toNat_fiBsel (g : Word) : (fiBsel g).toNat = 7 - g.toNat % 8 := by
  simp [fiBsel, BitVec.toNat_sub]
  omega

theorem toNat_readReg_pkState (s : State) :
    (s.readReg .pkState).toNat =
      s.pk.acc.toNat + s.pk.cnt.toNat * 2 ^ 8 + s.pk.outV.toNat * 2 ^ 16 + s.pk.outbuf.toNat * 2 ^ 24 := by
  have := s.pk.acc.isLt; have := s.pk.cnt.isLt; have := s.pk.outV.toNat_le; have := s.pk.outbuf.isLt
  simp only [State.readReg, BitVec.toNat_or, BitVec.toNat_shiftLeft, BitVec.toNat_setWidth, BitVec.toNat_ofBool,
    Nat.shiftLeft_eq]
  rw [or_eq_add (b := _ * 2 ^ 16 % 2 ^ 32) (k := 24) (by omega) (by omega),
    or_eq_add (b := _ * 2 ^ 8 % 2 ^ 32) (k := 16) (by omega) (by omega), or_eq_add (k := 8) (by omega) (by omega)]
  omega

theorem toNat_readReg_upState (s : State) :
    (s.readReg .upState).toNat = s.up.ubyte.toNat + s.up.uidx.val * 2 ^ 8 := by
  have := s.up.ubyte.isLt; have := s.up.uidx.isLt
  simp only [State.readReg, BitVec.toNat_or, BitVec.toNat_shiftLeft, BitVec.toNat_setWidth, BitVec.toNat_ofNat,
    Nat.shiftLeft_eq]
  rw [or_eq_add (k := 8) (by omega) (by omega)]
  omega

theorem toNat_code (st : SchedState) : st.code.toNat = scNumber st := by cases st <;> rfl

theorem toNat_readReg_scState (s : State) :
    (s.readReg .scState).toNat = scNumber s.sc.st + s.sc.fcode.toNat * 2 ^ 4 := by
  have := s.sc.fcode.isLt; have := s.sc.st.code.isLt
  simp only [State.readReg, BitVec.toNat_or, BitVec.toNat_shiftLeft, BitVec.toNat_setWidth, Nat.shiftLeft_eq]
  rw [or_eq_add (k := 4) (by omega) (by omega), ← toNat_code]
  omega

/-- R50's table is each register's index with the value that `RD` reads. -/
theorem registerTable_eq (s : State) :
    registerTable s = RegName.all.map fun r => (r.index.toNat, (s.readReg r).toNat) := by
  simp only [registerTable, RegName.all, List.map_append, List.map_cons, List.map_nil, toNat_readReg_pkState,
    toNat_readReg_upState, toNat_readReg_scState]
  simp [State.readReg, RegName.index, Config.idValue, toNat_fiBaddr, toNat_fiBsel, BitVec.toNat_setWidth_of_le,
    -BitVec.toNat_setWidth]

/-- `WR` places `imm` in the half of the register that R122 says. -/
theorem setHalf_eq_withHalf (old : Word) (h : BitVec 1) (imm : BitVec 16) : setHalf old h imm = withHalf old h imm := by
  have := old.isLt; have := imm.isLt
  unfold setHalf withHalf
  split <;> apply BitVec.eq_of_toNat_eq <;>
    simp only [BitVec.toNat_or, BitVec.toNat_shiftLeft, BitVec.toNat_setWidth, BitVec.extractLsb'_toNat,
      BitVec.toNat_ofNat, Nat.shiftLeft_eq, Nat.shiftRight_eq_div_pow] <;>
    rw [or_eq_add (k := 16) (by omega) (by omega)] <;>
    omega

/-! What `RD` and `WR` answer when no response waits (R121, R122) -/

theorem exec_rd_allocated {s : State} {reg : BitVec 6} {r : RegName} (hv : s.rsp.v = false)
    (hr : RegName.ofIndex reg = some r) : exec (.rd reg) s = .next (s.respond false (s.readReg r)) := by
  simp only [exec, execRd, hr]
  exact runCommand_ok _ _ (by simpa using hv)

theorem exec_rd_unallocated {s : State} {reg : BitVec 6} (hv : s.rsp.v = false) (hr : RegName.ofIndex reg = none) :
    exec (.rd reg) s = .next (s.raise (encode (.rd reg)) .reg) := by
  simp only [exec, execRd, hr]
  exact runCommand_error _ (by simpa using hv)

section
variable {s : State} {h : BitVec 1} {reg : BitVec 6} {imm : BitVec 16}

theorem exec_wr_refused (hv : s.rsp.v = false)
    (ha : ∀ r, RegName.ofIndex reg = some r → r.access = .ro ∨ r.access = .derived) :
    exec (.wr h reg imm) s = .next (s.raise (encode (.wr h reg imm)) .reg) := by
  have hh : s.held (opcodeOf (encode (.wr h reg imm))) = false := by simpa using hv
  simp only [exec, execWr]
  cases hr : RegName.ofIndex reg with
  | none => exact runCommand_error _ hh
  | some r => simpa only [if_pos (ha r hr)] using runCommand_error .reg hh

theorem exec_wr_busy {r : RegName} (hv : s.rsp.v = false) (hr : RegName.ofIndex reg = some r)
    (hb : r.busyGuarded = true) (hst : s.sc.st.running = true) :
    exec (.wr h reg imm) s = .next (s.raise (encode (.wr h reg imm)) .busy) := by
  have ha : ¬ (r.access = .ro ∨ r.access = .derived) := by cases r <;> simp_all [RegName.busyGuarded, RegName.access]
  simp only [exec, execWr, hr, if_neg ha, if_pos (And.intro hb hst)]
  exact runCommand_error _ (by simpa using hv)

theorem exec_wr_writes {u : State} (r : RegName) (hv : s.rsp.v = false)
    (hb : ¬ (r.busyGuarded = true ∧ s.sc.st.running = true)) (hw : s.writeReg h imm r = .ok u) :
    exec (.wr h r.index imm) s = .next (u.respond false 0) := by
  have ha : ¬ (r.access = .ro ∨ r.access = .derived) := by cases r <;> cases hw <;> simp [RegName.access]
  simp only [exec, execWr, RegName.ofIndex_index, if_neg ha, if_neg hb, hw]
  exact runCommand_ok _ _ (by simpa using hv)

/-- A register that is not busy-guarded is written whether the scheduler runs or not (R122). -/
theorem exec_wr_unguarded {u : State} (r : RegName) (hv : s.rsp.v = false) (hb : r.busyGuarded = false)
    (hw : s.writeReg h imm r = .ok u) : exec (.wr h r.index imm) s = .next (u.respond false 0) :=
  exec_wr_writes r hv (by simp [hb]) hw

/-- While the scheduler is stopped, every writable register is written (R122). -/
theorem exec_wr_stopped {u : State} (r : RegName) (hv : s.rsp.v = false) (hst : ¬ Running s)
    (hw : s.writeReg h imm r = .ok u) : exec (.wr h r.index imm) s = .next (u.respond false 0) :=
  exec_wr_writes r hv (fun hb => hst ((running_iff s).mpr hb.2)) hw

/-- While the scheduler runs, a write of one of its two configuration registers is refused (R122, R126). -/
theorem exec_wr_running (hv : s.rsp.v = false) (hreg : reg = 0x21 ∨ reg = 0x22) (hst : Running s) :
    exec (.wr h reg imm) s = .next (s.raise (encode (.wr h reg imm)) .busy) := by
  have hrun := (running_iff s).mp hst
  rcases hreg with rfl | rfl
  · exact exec_wr_busy (r := .scInterval) hv rfl rfl hrun
  · exact exec_wr_busy (r := .scNframes) hv rfl rfl hrun

end

theorem extractLsb'_three_eq_ofNat (imm : BitVec 16) : imm.extractLsb' 0 3 = BitVec.ofNat 3 imm.toNat := by
  simp [BitVec.toNat_eq]

end Sys2Proof.Machine

/-! ## The obligations on register access -/

namespace Sys2Proof.Claims
open Sys2Proof.Machine

/-- Settles O5: `NOP`'s rule changes nothing, so the command frame adds the response alone. -/
theorem nopOnlyResponds : Obligations.NopOnlyResponds := by
  refine ⟨fun w => (legalWordsMatchTable w).1 .nop, fun s => ⟨fun hv => ?_, fun hv => ?_⟩⟩
  · exact exec_held (by simpa using hv)
  · exact runCommand_ok s 0 (by simpa using hv)

/-- Settles O6: each row of R50's table is a register with the value read from it, and the other indices have no register. -/
theorem rdRespondsRegister : Obligations.RdRespondsRegister := by
  refine ⟨fun w reg => (legalWordsMatchTable w).1 (.rd reg),
    fun s reg => ⟨fun hv => ?_, fun hv v hmem => ?_, fun hv hu => ?_⟩⟩
  · exact exec_held (by simpa using hv)
  · rw [registerTable_eq, List.mem_map] at hmem
    obtain ⟨r, -, hrow⟩ := hmem
    obtain ⟨hidx, rfl⟩ := Prod.mk.inj hrow
    have hr : RegName.ofIndex reg = some r := by rw [← BitVec.eq_of_toNat_eq hidx, RegName.ofIndex_index]
    rw [exec_rd_allocated hv hr, okRsp, BitVec.ofNat_toNat, BitVec.setWidth_eq]
    rfl
  · rw [exec_rd_unallocated hv (RegName.ofIndex_of_unallocated hu), raise_eq_errored, toNat_encode]
    rfl

/-- Settles O7: an index that may not be written is refused first, and then a guarded one while the scheduler runs. -/
theorem wrChecksInOrder : Obligations.WrChecksInOrder := by
  refine ⟨fun w h reg imm => (legalWordsMatchTable w).1 (.wr h reg imm),
    fun s h reg imm => ⟨fun hv => ?_, fun hv hw => ?_, fun hv hreg hst => ?_⟩⟩
  · exact exec_held (by simpa using hv)
  · rw [exec_wr_refused hv fun r hr => RegName.access_of_not_writable hw hr, raise_eq_errored, toNat_encode]
    rfl
  · have hreg : reg = 0x21 ∨ reg = 0x22 := hreg.imp BitVec.eq_of_toNat_eq BitVec.eq_of_toNat_eq
    rw [exec_wr_running hv hreg hst, raise_eq_errored, toNat_encode]
    rfl

/-- Settles O8: the low half is the W1C write, the high half writes nothing, and the scheduler's events are set after it. -/
theorem wrStatusClearsBits : Obligations.WrStatusClearsBits := by
  refine ⟨fun s t hrst hs => ?_, fun s imm hv => ⟨exec_wr_unguarded .status hv rfl rfl, ?_⟩⟩
  · obtain ⟨hdone, hfault, -⟩ := statusSetWinsOverClear s t hrst hs
    exact ⟨fun h => hdone.mpr (.inr h), fun h => hfault.mpr (.inr h)⟩
  · refine ⟨(s.recover (imm.extractLsb' 0 3)).respond false 0, exec_wr_unguarded .status hv rfl rfl, fun i hi => ?_, ?_⟩
    · simp [clearStatus, hi]
    · simp [State.recover, State.respond, okRsp]

/-- Settles O9: the cycle closes around the written enables, which `irq` then reads with the new flags. -/
theorem wrIrqEnWritesEnables : Obligations.WrIrqEnWritesEnables := by
  have hlow (s : State) (imm : BitVec 16) (hv : s.rsp.v = false) :
      exec (.wr 0 0x02 imm) s = .next { s with rsp := okRsp 0, irqEn := BitVec.ofNat 3 imm.toNat } := by
    rw [← extractLsb'_three_eq_ofNat]
    exact exec_wr_unguarded .irqEn hv rfl rfl
  refine ⟨fun s imm hv => ⟨hlow s imm hv, exec_wr_unguarded .irqEn hv rfl rfl⟩, fun s t imm rest hp hr hs => ?_⟩
  have hd : decode (BitVec.ofNat 32 (0x08020000 + imm.toNat)) = .ok (.wr 0 0x02 imm) := by
    have := imm.isLt
    rw [(legalWordsMatchTable _).1]
    simp [wordOf, wrWord]
    omega
  rw [step_command hr.1 (accepted_of_ready hp hr) hd, hlow s imm hr.2.1] at hs
  have hen : t.irqEn = BitVec.ofNat 3 imm.toNat := by cases hs; rfl
  rw [irqLevel t, hen]
  exact and_congr_right' (exists_congr fun i => and_congr_right fun hi => by simp [hi])

/-- Settles O10: either half of `FI_NBYTES` is written together with `FI_FRAMES`. -/
theorem wrNbytesInvalidatesCount : Obligations.WrNbytesInvalidatesCount := by
  intro s h imm hv
  rw [← setHalf_eq_withHalf]
  exact exec_wr_unguarded .fiNbytes hv rfl rfl

/-- Settles O11: a stopped scheduler leaves both registers to `WR`; a running one makes the write an error. -/
theorem wrSchedulerConfig : Obligations.WrSchedulerConfig := by
  refine fun s h imm hv => ⟨fun hst => ?_, fun hst reg hreg => ⟨_, exec_wr_running hv hreg hst, rfl, rfl⟩⟩
  rw [← setHalf_eq_withHalf, ← setHalf_eq_withHalf]
  exact ⟨exec_wr_stopped .scInterval hv hst rfl, exec_wr_stopped .scNframes hv hst rfl⟩

/-- Settles O12: the write replaces one half, and `FI_BADDR` and `FI_BSEL` are read from the new `FI_G`. -/
theorem wrFrameIndexInputs : Obligations.WrFrameIndexInputs := by
  intro s h imm hv
  rw [← setHalf_eq_withHalf, ← setHalf_eq_withHalf]
  exact ⟨exec_wr_unguarded .fiFrm hv rfl rfl, _, exec_wr_unguarded .fiG hv rfl rfl, rfl, toNat_fiBaddr _, toNat_fiBsel _⟩

end Sys2Proof.Claims

/-! ## The bit-packer: pixels as bits, most significant first (R140 to R145) -/

namespace Sys2Proof.Machine
open Sys2Proof.Claims

/-- The low `n` bits of a number, most significant first: the order in which the packer takes and sends pixels (R73, R142). -/
def msbFirst (n v : Nat) : List Bool := (List.range n).reverse.map v.testBit

@[simp] theorem length_msbFirst (n v : Nat) : (msbFirst n v).length = n := by simp [msbFirst]

theorem msbFirst_congr {n v w : Nat} (h : ∀ i < n, v.testBit i = w.testBit i) : msbFirst n v = msbFirst n w :=
  List.map_congr_left fun i hi => h i (by simpa using hi)

theorem msbFirst_mod {n m : Nat} (h : n ≤ m) (v : Nat) : msbFirst n (v % 2 ^ m) = msbFirst n v :=
  msbFirst_congr fun i hi => by simp [Nat.testBit_mod_two_pow, hi.trans_le h]

theorem msbFirst_add (m n v : Nat) : msbFirst (m + n) v = msbFirst m (v >>> n) ++ msbFirst n v := by
  simp [msbFirst, Nat.add_comm m n, List.range_add, Function.comp_def, ← List.map_reverse, Nat.testBit_shiftRight]

theorem msbFirst_inj {n v w : Nat} (hv : v < 2 ^ n) (hw : w < 2 ^ n) (h : msbFirst n v = msbFirst n w) : v = w := by
  refine Nat.eq_of_testBit_eq fun i => ?_
  rcases Nat.lt_or_ge i n with hi | hi
  · exact List.map_inj_left.mp h i (by simpa using hi)
  · have hle := Nat.pow_le_pow_right two_pos hi
    rw [Nat.testBit_lt_two_pow (hv.trans_le hle), Nat.testBit_lt_two_pow (hw.trans_le hle)]

theorem msbFirst_zero (n : Nat) : msbFirst n 0 = List.replicate n false :=
  List.eq_replicate_iff.mpr ⟨length_msbFirst n 0, by simp [msbFirst]⟩

theorem bitsOf_eq_msbFirst (b : Byte) : bitsOf b = msbFirst 8 b.toNat := rfl

theorem bitsOf_ofNat (v : Nat) : bitsOf (BitVec.ofNat 8 v) = msbFirst 8 v := by
  rw [bitsOf_eq_msbFirst, BitVec.toNat_ofNat, msbFirst_mod le_rfl]

@[simp] theorem length_bitsOf (b : Byte) : (bitsOf b).length = 8 := rfl

theorem bitsOf_injective : Function.Injective bitsOf := fun b c h =>
  BitVec.eq_of_toNat_eq (msbFirst_inj b.isLt c.isLt h)

theorem length_flatMap_bitsOf (bs : List Byte) : (bs.flatMap bitsOf).length = 8 * bs.length := by
  simp [List.length_flatMap, Nat.mul_comm]

/-- Bit `7 - i` of byte `j` is bit `8j + i` of the bytes' stream (R73). -/
theorem getElem?_flatMap_bitsOf {bs : List Byte} {j i : Nat} {b : Byte} (hb : bs[j]? = some b) (hi : i < 8) :
    (bs.flatMap bitsOf)[8 * j + i]? = some (b.getLsbD (7 - i)) := by
  induction bs generalizing j with
  | nil => simp at hb
  | cons c bs ih =>
    cases j with
    | zero =>
      cases hb
      rw [List.flatMap_cons, List.getElem?_append_left (by simpa using hi)]
      simp [bitsOf, hi]
    | succ j =>
      rw [List.flatMap_cons, List.getElem?_append_right (by simp; omega), length_bitsOf,
        show 8 * (j + 1) + i - 8 = 8 * j + i by omega]
      exact ih hb

/-- A stream of bits has only one reading as bytes and a remainder shorter than a byte. -/
theorem flatMap_bitsOf_append_inj {bs cs : List Byte} {r q : List Bool} (hr : r.length < 8) (hq : q.length < 8)
    (h : bs.flatMap bitsOf ++ r = cs.flatMap bitsOf ++ q) : bs = cs ∧ r = q := by
  induction bs generalizing cs with
  | nil =>
    cases cs with
    | nil => exact ⟨rfl, h⟩
    | cons c cs =>
      have hlen := congrArg List.length h
      simp at hlen
      omega
  | cons b bs ih =>
    cases cs with
    | nil =>
      have hlen := congrArg List.length h
      simp at hlen
      omega
    | cons c cs =>
      simp only [List.flatMap_cons, List.append_assoc] at h
      obtain ⟨hbc, h⟩ := List.append_inj h rfl
      obtain ⟨rfl, hrq⟩ := ih h
      exact ⟨by rw [bitsOf_injective hbc], hrq⟩

theorem getD_append_replicate {α : Type} (l : List α) (z k : Nat) (d : α) :
    (l ++ List.replicate z d).getD k d = l.getD k d := by
  rcases Nat.lt_or_ge k l.length with h | h
  · exact List.getD_append _ _ _ _ h
  · rw [List.getD_append_right _ _ _ _ h, List.getD_eq_getElem?_getD, List.getElem?_getD_replicate_default_eq,
      List.getD_eq_default _ _ h]

/-! The group step (R142), which the bit step (R140) and the flush (R143) also are -/

/-- R142's `v`: the partial byte with the low `n` bits of `d` behind it. -/
def Packer.joined (k : Packer) (n : BitVec 4) (d : BitVec 8) : Nat :=
  k.acc.toNat * 2 ^ n.toNat + d.toNat % 2 ^ n.toNat

theorem Packer.joined_lt {k : Packer} (h : k.acc.toNat < 2 ^ k.cnt.toNat) (n : BitVec 4) (d : BitVec 8) :
    k.joined n d < 2 ^ (k.cnt.toNat + n.toNat) := by
  have hd := Nat.mod_lt d.toNat (Nat.two_pow_pos n.toNat)
  rw [Packer.joined, Nat.pow_add]
  calc _ < (k.acc.toNat + 1) * 2 ^ n.toNat := by linarith
    _ ≤ _ := Nat.mul_le_mul_right _ h

/-- The byte that the group step emits is `v >> (t - 8)` itself (R142). -/
theorem Packer.joined_shiftRight_lt {k : Packer} (h : k.acc.toNat < 2 ^ k.cnt.toNat) {n : BitVec 4} (d : BitVec 8)
    (ht : 8 ≤ k.cnt.toNat + n.toNat) : k.joined n d >>> (k.cnt.toNat + n.toNat - 8) < 2 ^ 8 := by
  rw [Nat.shiftRight_eq_div_pow, Nat.div_lt_iff_lt_mul (Nat.two_pow_pos _), ← Nat.pow_add, Nat.add_sub_cancel' ht]
  exact Packer.joined_lt h n d

theorem Packer.bitsStep_within {k : Packer} {n : BitVec 4} {d : BitVec 8} (h : k.cnt.toNat + n.toNat < 8) :
    k.bitsStep n d =
      { k with acc := BitVec.ofNat 8 (k.joined n d), cnt := BitVec.ofNat 3 (k.cnt.toNat + n.toNat) } := by
  simp only [Packer.bitsStep, Packer.joined, Nat.shiftLeft_eq, if_neg (Nat.not_le.mpr h)]

theorem Packer.bitsStep_emits {k : Packer} {n : BitVec 4} {d : BitVec 8} (h : 8 ≤ k.cnt.toNat + n.toNat) :
    k.bitsStep n d =
      { outbuf := BitVec.ofNat 8 (k.joined n d >>> (k.cnt.toNat + n.toNat - 8)), outV := true, bytes := k.bytes + 1
        acc := BitVec.ofNat 8 (k.joined n d % 2 ^ (k.cnt.toNat + n.toNat - 8))
        cnt := BitVec.ofNat 3 (k.cnt.toNat + n.toNat - 8) } := by
  simp only [Packer.bitsStep, Packer.joined, Nat.shiftLeft_eq, if_pos h, Packer.emit]

theorem Packer.joined_pixel (k : Packer) (p : BitVec 1) : k.joined 1 (p.setWidth 8) = k.acc.toNat * 2 + p.toNat := by
  simp [Packer.joined, Nat.mod_eq_of_lt p.isLt]

/-- The bit step packs a group of one pixel. -/
theorem Packer.bitStep_eq_bitsStep (k : Packer) (p : BitVec 1) : k.bitStep p = k.bitsStep 1 (p.setWidth 8) := by
  have hacc : (k.acc <<< 1) + p.setWidth 8 = BitVec.ofNat 8 (k.joined 1 (p.setWidth 8)) := by
    rw [Packer.joined_pixel]
    apply BitVec.eq_of_toNat_eq
    simp [Nat.shiftLeft_eq]
  have hcnt : k.cnt = 7 ↔ k.cnt.toNat = 7 := BitVec.toNat_inj.symm
  have := k.cnt.isLt
  unfold Packer.bitStep
  dsimp only
  rw [hacc]
  split
  · next h =>
    rw [Packer.bitsStep_emits (by simp [h])]
    simp [h, Packer.emit, Nat.mod_one]
  · next h =>
    rw [hcnt] at h
    rw [Packer.bitsStep_within (by simp; omega)]
    simp [BitVec.ofNat_add]

theorem ofNat_mod_byte (v : Nat) : BitVec.ofNat 8 (v % 2 ^ 8) = BitVec.ofNat 8 v := by simp [BitVec.toNat_eq]

theorem shiftLeft_eq_ofNat (b : Byte) (n : Nat) : b <<< n = BitVec.ofNat 8 (b.toNat * 2 ^ n) := by
  apply BitVec.eq_of_toNat_eq
  simp [Nat.shiftLeft_eq]

/-- How many bits the partial byte lacks (R143). -/
def Packer.vacant (k : Packer) : BitVec 4 := BitVec.ofNat 4 ((8 - k.cnt.toNat) % 8)

theorem Packer.toNat_vacant (k : Packer) : k.vacant.toNat = (8 - k.cnt.toNat) % 8 := by
  simp [Packer.vacant]
  omega

/-- The flush packs zeros up to the byte's end. -/
theorem Packer.flush_eq_bitsStep (k : Packer) : k.flush = k.bitsStep k.vacant 0 := by
  have hcnt := k.cnt.isLt
  have hv := k.toNat_vacant
  unfold Packer.flush
  split
  · next h0 =>
    have hv0 : k.vacant.toNat = 0 := by simp [hv, h0]
    rw [Packer.bitsStep_within (by omega)]
    simp [Packer.joined, hv0]
  · next h0 =>
    have hc : k.cnt.toNat ≠ 0 := fun hc => h0 (BitVec.eq_of_toNat_eq hc)
    have hv8 : k.vacant.toNat = 8 - k.cnt.toNat := by omega
    have ht : k.cnt.toNat + (8 - k.cnt.toNat) = 8 := by omega
    rw [Packer.bitsStep_emits (by omega)]
    simp [Packer.joined, hv8, ht, shiftLeft_eq_ofNat, Packer.emit, Nat.mod_one]

/-! What the packer commands answer (R141 to R144) -/

section
variable {s : State}

theorem withPk_respond_ok (s : State) (k : Packer) :
    (s.withPk k).respond false 0 = { s with rsp := okRsp 0, pk := k } := rfl

theorem held_of_isPacker {i : Instr} (hi : isPacker i = true) :
    s.held (opcodeOf (encode i)) = (s.rsp.v || s.pk.outV) := by
  cases i <;> simp_all [isPacker]

theorem exec_packer_held {i : Instr} (hi : isPacker i = true) (h : s.rsp.v = true ∨ s.pk.outV = true) :
    exec i s = .next s :=
  exec_held (by simpa [held_of_isPacker hi] using h)

variable (hv : s.rsp.v = false) (ho : s.pk.outV = false)
include hv ho

theorem not_held_of_isPacker {i : Instr} (hi : isPacker i = true) : s.held (opcodeOf (encode i)) = false := by
  simp [held_of_isPacker hi, hv, ho]

theorem exec_pkBit_ready (p : BitVec 1) :
    exec (.pkBit p) s = .next ((s.withPk (s.pk.bitsStep 1 (p.setWidth 8))).respond false 0) := by
  rw [← Packer.bitStep_eq_bitsStep]
  exact runCommand_ok _ _ (not_held_of_isPacker hv ho rfl)

theorem exec_pkBits_ready {n : BitVec 4} (hn : 1 ≤ n.toNat ∧ n.toNat ≤ 8) (d : BitVec 8) :
    exec (.pkBits n d) s = .next ((s.withPk (s.pk.bitsStep n d)).respond false 0) := by
  simp only [exec, execPkBits, if_neg (show ¬ (n.toNat = 0 ∨ 8 < n.toNat) by omega)]
  exact runCommand_ok _ _ (not_held_of_isPacker hv ho rfl)

theorem exec_pkBits_operand {n : BitVec 4} (hn : n.toNat = 0 ∨ 8 < n.toNat) (d : BitVec 8) :
    exec (.pkBits n d) s = .next (s.raise (encode (.pkBits n d)) .operand) := by
  simp only [exec, execPkBits, if_pos hn]
  exact runCommand_error _ (not_held_of_isPacker hv ho rfl)

theorem exec_pkFlush_ready : exec .pkFlush s = .next ((s.withPk s.pk.flush).respond false 0) :=
  runCommand_ok _ _ (not_held_of_isPacker hv ho rfl)

theorem exec_pkClr_ready : exec .pkClr s = .next ((s.withPk s.pk.clear).respond false 0) :=
  runCommand_ok _ _ (not_held_of_isPacker hv ho rfl)

end

end Sys2Proof.Machine

/-! ## The obligations on single packer commands -/

namespace Sys2Proof.Claims
open Sys2Proof.Machine

/-- Settles O13: the pixel is packed as a group of one, which emits where it is the eighth. -/
theorem pkBitPacksOnePixel : Obligations.PkBitPacksOnePixel := by
  refine ⟨fun w p => (legalWordsMatchTable w).1 (.pkBit p),
    fun s p => ⟨exec_packer_held rfl, fun hv ho hc => ?_, fun hv ho hc => ?_⟩⟩
  · have hcnt := s.pk.cnt.isLt
    rw [exec_pkBit_ready hv ho, Packer.bitsStep_within (by simp; omega), Packer.joined_pixel, withPk_respond_ok,
      ofNat_mod_byte]
    rfl
  · rw [exec_pkBit_ready hv ho, Packer.bitsStep_emits (by simp; omega), Packer.joined_pixel, withPk_respond_ok,
      ofNat_mod_byte]
    simp [hc, BitVec.ofNat_add, Nat.mod_one]

/-- Settles O14: with `ACC < 2^CNT` the numbers of R142's pseudocode fit their registers. -/
theorem pkBitsPacksGroup : Obligations.PkBitsPacksGroup := by
  refine ⟨fun w n d => (legalWordsMatchTable w).1 (.pkBits n d),
    fun s n d => ⟨exec_packer_held rfl, fun hv ho hn => ?_, fun hv ho h1 h8 hb => ?_⟩⟩
  · rw [exec_pkBits_operand hv ho hn, raise_eq_errored, toNat_encode]
    rfl
  · have hcnt := s.pk.cnt.isLt
    refine ⟨_, exec_pkBits_ready hv ho ⟨h1, h8⟩ d, rfl, fun hlt => ?_, fun hge => ?_⟩
    · have hfit := (Packer.joined_lt hb n d).trans_le (Nat.pow_le_pow_right two_pos hlt.le)
      rw [State.respond_pk, State.withPk_pk, Packer.bitsStep_within hlt]
      exact ⟨Nat.mod_eq_of_lt hfit, Nat.mod_eq_of_lt hlt, rfl, ho, rfl⟩
    · have hout := Packer.joined_shiftRight_lt hb d hge
      have hacc : s.pk.joined n d % 2 ^ (s.pk.cnt.toNat + n.toNat - 8) < 2 ^ 8 :=
        (Nat.mod_lt _ (Nat.two_pow_pos _)).trans_le (Nat.pow_le_pow_right two_pos (by omega))
      rw [State.respond_pk, State.withPk_pk, Packer.bitsStep_emits hge, ← Packer.joined, ← Nat.shiftRight_eq_div_pow]
      exact ⟨Nat.mod_eq_of_lt hout, rfl, rfl, Nat.mod_eq_of_lt hacc, Nat.mod_eq_of_lt (by omega)⟩

/-- Settles O16: a partial byte is filled with zeros; without one the flush changes nothing. -/
theorem pkFlushPadsPartialByte : Obligations.PkFlushPadsPartialByte := by
  refine ⟨fun w => (legalWordsMatchTable w).1 .pkFlush,
    fun s => ⟨exec_packer_held rfl, fun hv ho hc => ?_, fun hv ho hc => ?_⟩⟩
  · rw [exec_pkFlush_ready hv ho, Packer.flush, if_pos (BitVec.eq_of_toNat_eq hc)]
    rfl
  · rw [exec_pkFlush_ready hv ho, Packer.flush, if_neg fun h => hc (by simp [h]), withPk_respond_ok, ofNat_mod_byte,
      shiftLeft_eq_ofNat]
    rfl

/-- Settles O17: only `ACC`, `CNT` and `PK_BYTES` are written. -/
theorem pkClrDiscardsPartialByte : Obligations.PkClrDiscardsPartialByte :=
  ⟨fun w => (legalWordsMatchTable w).1 .pkClr, fun _ => ⟨exec_packer_held rfl, exec_pkClr_ready⟩⟩

end Sys2Proof.Claims

/-! ## Commands fed one after the other -/

namespace Sys2Proof.Machine

section
variable {s t u : State} {is js : List Instr} {rs qs : List Response}

theorem feed_cons {i : Instr} (hx : exec i s = .next t)
    (hf : feed is t.settle = some (u, rs)) : feed (i :: is) s = some (u, t.rspPort :: rs) := by
  simp [feed, hx, hf]

theorem feed_append (h : feed is s = some (t, rs))
    (h' : feed js t = some (u, qs)) : feed (is ++ js) s = some (u, rs ++ qs) := by
  induction is generalizing s rs with
  | nil => cases h; exact h'
  | cons i is ih =>
    rw [feed] at h
    split at h
    · next v hx =>
      obtain ⟨⟨w, rs'⟩, hf, he⟩ := Option.map_eq_some_iff.mp h
      cases he
      exact feed_cons hx (ih hf)
    · cases h

end

end Sys2Proof.Machine

/-! ## The stream that the packer sends (R142, R145) -/

namespace Sys2Proof.Machine
open Sys2Proof.Claims

/-- The `CNT` pixels in `ACC`, oldest first (R32, R140). -/
def Packer.pending (k : Packer) : List Bool := msbFirst k.cnt.toNat k.acc.toNat

/-- The byte in the output buffer, if there is one (R31). -/
def Packer.waiting (k : Packer) : List Byte := if k.outV then [k.outbuf] else []

theorem Packer.length_pending_lt (k : Packer) : k.pending.length < 8 := by
  simpa [Packer.pending] using k.cnt.isLt

/-- With `ACC < 2^CNT` the pending pixels are the whole of `ACC` and `CNT`. -/
theorem Packer.pending_inj {k l : Packer} (hk : k.acc.toNat < 2 ^ k.cnt.toNat) (hl : l.acc.toNat < 2 ^ l.cnt.toNat)
    (h : k.pending = l.pending) : k.acc = l.acc ∧ k.cnt = l.cnt := by
  have hc : k.cnt.toNat = l.cnt.toNat := by simpa [Packer.pending] using congrArg List.length h
  rw [Packer.pending, Packer.pending, hc] at h
  rw [hc] at hk
  exact ⟨BitVec.eq_of_toNat_eq (msbFirst_inj hk hl h), BitVec.eq_of_toNat_eq hc⟩

/-- R142's `v` is the pending pixels with the group's behind them. -/
theorem Packer.msbFirst_joined (k : Packer) (n : BitVec 4) (d : BitVec 8) :
    msbFirst (k.cnt.toNat + n.toNat) (k.joined n d) = k.pending ++ msbFirst n.toNat d.toNat := by
  have hd := Nat.mod_lt d.toNat (Nat.two_pow_pos n.toNat)
  have hlow : k.joined n d % 2 ^ n.toNat = d.toNat % 2 ^ n.toNat := by simp [Packer.joined]
  have hhigh : k.joined n d >>> n.toNat = k.acc.toNat := by
    rw [Nat.shiftRight_eq_div_pow, Packer.joined, Nat.mul_comm, Nat.mul_add_div (Nat.two_pow_pos _),
      Nat.div_eq_of_lt hd, Nat.add_zero]
  rw [msbFirst_add, hhigh, ← msbFirst_mod le_rfl (k.joined n d), hlow, msbFirst_mod le_rfl]
  rfl

/-- The group step loses no pixel and changes none: they go into the byte it emits, if it emits one, and into `ACC`. -/
theorem Packer.bitsStep_pixels {k : Packer} (ho : k.outV = false) {n : BitVec 4} (hn : n.toNat ≤ 8) (d : BitVec 8) :
    k.pending ++ msbFirst n.toNat d.toNat =
      (k.bitsStep n d).waiting.flatMap bitsOf ++ (k.bitsStep n d).pending := by
  have hcnt := k.cnt.isLt
  rw [← Packer.msbFirst_joined]
  rcases Nat.lt_or_ge (k.cnt.toNat + n.toNat) 8 with ht | ht
  · rw [Packer.bitsStep_within ht]
    simp only [Packer.waiting, Packer.pending, ho, BitVec.toNat_ofNat, Nat.mod_eq_of_lt (b := 2 ^ 3) ht,
      msbFirst_mod ht.le]
    rfl
  · obtain ⟨m, hm⟩ := Nat.exists_eq_add_of_le ht
    have hsub : k.cnt.toNat + n.toNat - 8 = m := by omega
    have hm8 : m < 8 := by omega
    rw [Packer.bitsStep_emits ht, hsub, hm, msbFirst_add]
    simp only [Packer.waiting, Packer.pending, BitVec.toNat_ofNat, Nat.mod_eq_of_lt (b := 2 ^ 3) hm8,
      msbFirst_mod hm8.le, msbFirst_mod le_rfl]
    simp [bitsOf_ofNat]

/-- `PK_BYTES` counts the byte that the group step emits. -/
theorem Packer.bitsStep_bytes {k : Packer} (ho : k.outV = false) (n : BitVec 4) (d : BitVec 8) :
    (k.bitsStep n d).bytes = k.bytes + BitVec.ofNat 32 (k.bitsStep n d).waiting.length := by
  rcases Nat.lt_or_ge (k.cnt.toNat + n.toNat) 8 with ht | ht
  · simp [Packer.bitsStep_within ht, Packer.waiting, ho]
  · simp [Packer.bitsStep_emits ht, Packer.waiting]

theorem Packer.pending_flush (k : Packer) : k.flush.pending = [] := by
  unfold Packer.flush
  split
  · next h => simp [Packer.pending, h, msbFirst]
  · rfl

/-- Nothing holds a packer command, and R55 item 1 holds. -/
structure PackerReady (s : State) : Prop where
  rsp : s.rsp.v = false
  out : s.pk.outV = false
  bounded : s.accBounded

/-- From `s` to `t` the packer has taken the pixels `ps`, and `SINK` the bytes `bs`: they carry the pixels that were pending and
then `ps`, but for the last ones, which are pending now. -/
structure Packs (s : State) (ps : List Bool) (bs : List Byte) (t : State) : Prop where
  ready : PackerReady t
  sink : t.sink = s.sink ++ bs
  bytes : t.pk.bytes = s.pk.bytes + BitVec.ofNat 32 bs.length
  pixels : s.pk.pending ++ ps = bs.flatMap bitsOf ++ t.pk.pending

theorem settle_pending (s : State) : s.settle.pk.pending = s.pk.pending := rfl

theorem settle_sink_eq_waiting (s : State) : s.settle.sink = s.sink ++ s.pk.waiting := by
  rw [State.settle_sink, Packer.waiting]
  split <;> simp

section
variable {s t u : State} {ps qs : List Bool} {bs cs : List Byte}

theorem Packs.refl (hs : PackerReady s) : Packs s [] [] s := ⟨hs, by simp, by simp, by simp⟩

theorem Packs.trans (h : Packs s ps bs t) (h' : Packs t qs cs u) : Packs s (ps ++ qs) (bs ++ cs) u where
  ready := h'.ready
  sink := by rw [h'.sink, h.sink, List.append_assoc]
  bytes := by rw [h'.bytes, h.bytes, List.length_append, BitVec.ofNat_add, BitVec.add_assoc]
  pixels := by rw [← List.append_assoc, h.pixels, List.append_assoc, h'.pixels, List.flatMap_append, List.append_assoc]

/-- The pixels decide the bytes and what is left of them in the packer, however the commands grouped them. -/
theorem Packs.unique (h : Packs s ps bs t) (h' : Packs s ps cs u) :
    t.pk.acc = u.pk.acc ∧ t.pk.cnt = u.pk.cnt ∧ t.pk.bytes = u.pk.bytes ∧ t.sink = u.sink := by
  obtain ⟨rfl, hp⟩ := flatMap_bitsOf_append_inj t.pk.length_pending_lt u.pk.length_pending_lt
    (h.pixels.symm.trans h'.pixels)
  obtain ⟨hacc, hcnt⟩ := Packer.pending_inj h.ready.bounded h'.ready.bounded hp
  exact ⟨hacc, hcnt, h.bytes.trans h'.bytes.symm, h.sink.trans h'.sink.symm⟩

/-- A group step, its response and its byte taken, packs the group's pixels. -/
theorem packs_bitsStep (hs : PackerReady s) {n : BitVec 4} (hn : n.toNat ≤ 8) (d : BitVec 8) :
    Packs s (msbFirst n.toNat d.toNat) (s.pk.bitsStep n d).waiting
      ((s.withPk (s.pk.bitsStep n d)).respond false 0).settle where
  ready := ⟨rfl, rfl, Packer.bitsStep_accBounded hs.bounded hn d⟩
  sink := settle_sink_eq_waiting _
  bytes := Packer.bitsStep_bytes hs.out n d
  pixels := Packer.bitsStep_pixels hs.out hn d

/-- A command that carries pixels is the step of their group (R140, R142). -/
theorem exec_of_carriesPixels {i : Instr} (hi : CarriesPixels i) (hs : PackerReady s) :
    ∃ (n : BitVec 4) (d : BitVec 8), n.toNat ≤ 8 ∧ carried i = msbFirst n.toNat d.toNat ∧
      exec i s = .next ((s.withPk (s.pk.bitsStep n d)).respond false 0) := by
  cases i with
  | pkBit p =>
    refine ⟨1, p.setWidth 8, by decide, ?_, exec_pkBit_ready hs.rsp hs.out p⟩
    simp [carried, msbFirst, BitVec.getLsbD]
  | pkBits n d => exact ⟨n, d, hi.2, rfl, exec_pkBits_ready hs.rsp hs.out hi d⟩
  | _ => cases hi

/-- Any commands that carry pixels pack the pixels they carry (R145). -/
theorem feed_packs {is : List Instr} (hi : ∀ i ∈ is, CarriesPixels i) (hs : PackerReady s) :
    ∃ t rs bs, feed is s = some (t, rs) ∧ Packs s (is.flatMap carried) bs t := by
  induction is generalizing s with
  | nil => exact ⟨s, [], [], rfl, Packs.refl hs⟩
  | cons i is ih =>
    obtain ⟨hi, his⟩ := List.forall_mem_cons.mp hi
    obtain ⟨n, d, hn, hc, hx⟩ := exec_of_carriesPixels hi hs
    have hstep := packs_bitsStep hs hn d
    obtain ⟨t, rs, bs, hf, hp⟩ := ih his hstep.ready
    rw [List.flatMap_cons, hc]
    exact ⟨t, _, _, feed_cons hx hf, hstep.trans hp⟩

/-- A flush packs the zeros that the partial byte lacks (R143). -/
theorem packs_flush (hs : PackerReady s) :
    ∃ bs, Packs s (List.replicate s.pk.vacant.toNat false) bs ((s.withPk s.pk.flush).respond false 0).settle := by
  have hn : s.pk.vacant.toNat ≤ 8 := by rw [Packer.toNat_vacant]; omega
  rw [Packer.flush_eq_bitsStep, ← msbFirst_zero]
  exact ⟨_, packs_bitsStep hs hn 0⟩

/-- Any commands that carry pixels and a flush send whole bytes: the pending pixels, the pixels carried, and zeros up to the
byte's end (R145). -/
theorem feed_flush_sends {is : List Instr} (hi : ∀ i ∈ is, CarriesPixels i) (hs : PackerReady s) :
    ∃ t rs bs z, feed (is ++ [.pkFlush]) s = some (t, rs) ∧ t.sink = s.sink ++ bs ∧
      t.pk.bytes = s.pk.bytes + BitVec.ofNat 32 bs.length ∧ z < 8 ∧
      s.pk.pending ++ is.flatMap carried ++ List.replicate z false = bs.flatMap bitsOf := by
  obtain ⟨u, rs, bs, hf, hp⟩ := feed_packs hi hs
  obtain ⟨cs, hflush⟩ := packs_flush hp.ready
  have h := hp.trans hflush
  have hz : u.pk.vacant.toNat < 8 := by rw [Packer.toNat_vacant]; omega
  have hx := exec_pkFlush_ready hp.ready.rsp hp.ready.out
  refine ⟨_, _, _, _, feed_append hf (feed_cons hx rfl), h.sink, h.bytes, hz, ?_⟩
  have hbits := h.pixels
  rwa [settle_pending, State.respond_pk, State.withPk_pk, Packer.pending_flush, List.append_nil,
    ← List.append_assoc] at hbits

end

end Sys2Proof.Machine

/-! ## The obligations on streams of pixels -/

namespace Sys2Proof.Claims
open Sys2Proof.Machine

/-- Settles O15: both sides carry the pixels `d[n-1]` to `d[0]`, and the pixels decide what the packer does. -/
theorem pkBitsEqualsPkBitSequence : Obligations.PkBitsEqualsPkBitSequence := by
  intro s n d hv ho hb h1 h8
  have hs : PackerReady s := ⟨hv, ho, hb⟩
  obtain ⟨t, rs, bs, hf, hp⟩ := feed_packs (is := [.pkBits n d]) (by simp [CarriesPixels, h1, h8]) hs
  obtain ⟨u, qs, cs, hf', hp'⟩ := feed_packs
    (is := (List.range n.toNat).reverse.map fun j => .pkBit (pixel (d.getLsbD j))) (by simp [CarriesPixels]) hs
  have hsame : ((List.range n.toNat).reverse.map fun j => Instr.pkBit (pixel (d.getLsbD j))).flatMap carried =
      [Instr.pkBits n d].flatMap carried := by
    have hone (j : Nat) : carried (.pkBit (pixel (d.getLsbD j))) = [d.getLsbD j] := by simp [carried, pixel]
    simp only [List.flatMap_map, hone]
    exact (List.flatMap_pure_eq_map _ _).trans (List.append_nil _).symm
  rw [hsame] at hp'
  exact ⟨t, u, rs, qs, hf, hf', hp.unique hp'⟩

/-- Settles O18: with no pixel pending at the start, the bytes' bits are the pixels and fewer than 8 zeros. -/
theorem packedStreamBytes : Obligations.PackedStreamBytes := by
  rintro s cs ps hv ho hacc hcnt hcs rfl
  have hs : PackerReady s := ⟨hv, ho, by simp [State.accBounded, hacc]⟩
  obtain ⟨t, rs, bs, z, hf, hsink, hbytes, hz, hbits⟩ := feed_flush_sends hcs hs
  have hpend : s.pk.pending = [] := by simp [Packer.pending, hcnt, msbFirst]
  rw [hpend, List.nil_append] at hbits
  refine ⟨t, rs, bs, hf, hsink, ?_, fun j b hj i hi => ?_, hbytes⟩
  · have hlen := congrArg List.length hbits
    rw [length_flatMap_bitsOf, List.length_append, List.length_replicate] at hlen
    omega
  · have hbit := getElem?_flatMap_bitsOf hj hi
    rw [← getD_append_replicate _ z, List.getD_eq_getElem?_getD, hbits, hbit, Option.getD_some]

end Sys2Proof.Claims

/-! ## The bit-unpacker (R160 to R162) -/

namespace Sys2Proof.Machine

/-- `sel` is the byte's bit `7 - UIDX`, as R160's formula computes it. -/
theorem zext32_sel (b : Byte) (k : Nat) : zext32 (sel b k) = BitVec.ofNat 32 (b.toNat / 2 ^ (7 - k) % 2) := by
  apply BitVec.eq_of_toNat_eq
  simp [sel, Nat.shiftRight_eq_div_pow]

section
variable {s : State}

theorem exec_upBit_starved (hi : s.up.uidx = 8) (h : s.inputs.biValid = false ∨ s.source = []) :
    exec .upBit s = .next s := by
  have hb : s.biValid = false := by rcases h with h | h <;> simp [State.biValid, h]
  exact exec_held (by simp [hi, hb])

variable (hv : s.rsp.v = false)
include hv

/-- `UP_BIT` with `UIDX = 8` pops a byte; the bit `b[7]` it responds is `sel`'s at `UIDX = 0` (R160, R161). -/
theorem exec_upBit_new {b : Byte} {rest : List Byte} (hi : s.up.uidx = 8) (hb : s.inputs.biValid = true)
    (hs : s.source = b :: rest) :
    exec .upBit s = .next (((s.withSource rest).withUp (s.up.stepNew b)).respond false (zext32 (sel b 0))) := by
  have hready : s.biValid = true := by simp [State.biValid, hb, hs]
  simp only [exec, execUpBit, if_pos hi, hs]
  exact runCommand_ok _ _ (by simp [hv, hready])

theorem exec_upBit_same (hi : s.up.uidx ≠ 8) :
    exec .upBit s = .next ((s.withUp s.up.stepSame).respond false (zext32 (sel s.up.ubyte s.up.uidx.val))) := by
  simp only [exec, execUpBit, if_neg hi]
  exact runCommand_ok _ _ (by simp [hv, hi])

theorem exec_upClr_ready : exec .upClr s = .next ((s.withUp s.up.clear).respond false 0) :=
  runCommand_ok _ _ (by simpa using hv)

end

end Sys2Proof.Machine

/-! ## The obligations on single unpacker commands -/

namespace Sys2Proof.Claims
open Sys2Proof.Machine

/-- Settles O19: `UIDX = 8` needs a byte and responds its bit 7; a smaller `UIDX` has one more bit of the current byte. -/
theorem upBitProducesNextBit : Obligations.UpBitProducesNextBit := by
  refine ⟨fun w => (legalWordsMatchTable w).1 .upBit, fun s =>
    ⟨fun hv => exec_held (by simp [hv]), exec_upBit_starved, fun hv hi hb b rest hs => ?_, fun hv k hk => ?_⟩⟩
  · have hbit : b.toNat / 2 ^ 7 % 2 = b.toNat / 128 := by have := b.isLt; omega
    rw [exec_upBit_new hv hi hb hs, zext32_sel, hbit]
    simp [State.respond, State.withUp, State.withSource, Unpacker.stepNew, okRsp, BitVec.ofNat_add]
  · have hidx : s.up.uidx = k.castSucc := Fin.ext hk
    rw [exec_upBit_same hv (by simp [hidx, Fin.ext_iff]; omega), zext32_sel, hk]
    simp [State.respond, State.withUp, Unpacker.stepSame, okRsp, BitVec.ofNat_add, hidx]

/-- Settles O20: every field of the unpacker is written, and no other state but the response. -/
theorem upClrDiscardsByte : Obligations.UpClrDiscardsByte :=
  ⟨fun w => (legalWordsMatchTable w).1 .upClr, fun _ => ⟨fun hv => exec_held (by simpa using hv), exec_upClr_ready⟩⟩

end Sys2Proof.Claims

/-! ## The stream that the unpacker produces (R163) -/

namespace Sys2Proof.Machine
open Sys2Proof.Claims

theorem msbFirst_succ (n v : Nat) : msbFirst (n + 1) v = v.testBit n :: msbFirst n v := by
  simp [msbFirst, List.range_succ]

/-- The response of `UP_BIT` is the selected bit's (R161). -/
theorem rspPort_respond_sel (s : State) (b : Byte) {n k : Nat} (h : k + (n + 1) = 8) :
    (s.respond false (zext32 (sel b k))).rspPort = bitRsp (b.toNat.testBit n) := by
  rw [zext32_sel, ← Nat.toNat_testBit, show 7 - k = n by omega]
  rfl

/-- Nothing holds `UP_BIT` while the source has a byte, and no bit of the current byte is left (R24, R33). -/
structure UnpackerReady (s : State) : Prop where
  rsp : s.rsp.v = false
  uidx : s.up.uidx = 8
  source : s.inputs.biValid = true

/-- From `s` to `t` the unpacker has consumed the bytes `bs` and produced all their bits. -/
structure Unpacks (s : State) (bs : List Byte) (t : State) : Prop where
  ready : UnpackerReady t
  source : s.source = bs ++ t.source
  bytes : t.up.bytes = s.up.bytes + BitVec.ofNat 32 bs.length
  bits : t.up.bits = s.up.bits + BitVec.ofNat 32 (8 * bs.length)

section
variable {s t u : State} {bs cs : List Byte}

theorem Unpacks.refl (hs : UnpackerReady s) : Unpacks s [] s := ⟨hs, rfl, by simp, by simp⟩

theorem Unpacks.trans (h : Unpacks s bs t) (h' : Unpacks t cs u) : Unpacks s (bs ++ cs) u where
  ready := h'.ready
  source := by rw [h.source, h'.source, List.append_assoc]
  bytes := by rw [h'.bytes, h.bytes, List.length_append, BitVec.ofNat_add, BitVec.add_assoc]
  bits := by rw [h'.bits, h.bits, List.length_append, Nat.mul_add, BitVec.ofNat_add, BitVec.add_assoc]

/-- The commands that finish the current byte respond the bits that are left of it, and touch nothing outside the unpacker. -/
theorem feed_upBit_finishes {n : Nat} (hv : s.rsp.v = false) (hn : s.up.uidx.val + n = 8) :
    ∃ t, feed (List.replicate n .upBit) s = some (t, (msbFirst n s.up.ubyte.toNat).map bitRsp) ∧
      t.rsp.v = false ∧ t.inputs = s.inputs ∧ t.source = s.source ∧
      t.up = { s.up with uidx := 8, bits := s.up.bits + BitVec.ofNat 32 n } := by
  induction n generalizing s with
  | zero =>
    have hi : s.up.uidx = 8 := Fin.ext hn
    exact ⟨s, rfl, hv, rfl, rfl, by simp [← hi]⟩
  | succ n ih =>
    have hi : s.up.uidx ≠ 8 := fun hi => by simp [hi] at hn
    have hidx : (s.up.uidx + 1).val = s.up.uidx.val + 1 := Fin.val_add_one_of_lt' (by omega)
    have hx := exec_upBit_same hv hi
    obtain ⟨t, hf, htv, hin, hsrc, hup⟩ := ih
      (s := ((s.withUp s.up.stepSame).respond false (zext32 (sel s.up.ubyte s.up.uidx.val))).settle) rfl
      (by simp [Unpacker.stepSame, hidx]; omega)
    refine ⟨t, ?_, htv, hin, hsrc, ?_⟩
    · rw [List.replicate_succ, feed_cons hx hf, rspPort_respond_sel _ _ hn, msbFirst_succ]
      rfl
    · simp [hup, Unpacker.stepSame, Nat.add_comm n 1, BitVec.ofNat_add, BitVec.add_assoc]

/-- Eight commands respond the bits of the source's next byte. -/
theorem feed_upBit_byte {b : Byte} {rest : List Byte} (hs : UnpackerReady s) (hb : s.source = b :: rest) :
    ∃ t, feed (List.replicate 8 .upBit) s = some (t, (bitsOf b).map bitRsp) ∧ Unpacks s [b] t := by
  have hx := exec_upBit_new hs.rsp hs.uidx hs.source hb
  obtain ⟨t, hf, htv, hin, hsrc, hup⟩ := feed_upBit_finishes (n := 7)
    (s := (((s.withSource rest).withUp (s.up.stepNew b)).respond false (zext32 (sel b 0))).settle) rfl rfl
  refine ⟨t, ?_, ⟨htv, by rw [hup], by rw [hin]; exact hs.source⟩, ?_, ?_, ?_⟩
  · rw [List.replicate_succ, feed_cons hx hf, rspPort_respond_sel _ _ (n := 7) rfl, bitsOf_eq_msbFirst, msbFirst_succ]
    rfl
  · rw [hb, hsrc]
    rfl
  · simp [hup, Unpacker.stepNew]
  · simp [hup, Unpacker.stepNew, BitVec.add_assoc]

/-- `8m` commands respond the bits of the source's first `m` bytes (R163). -/
theorem feed_upBit_bytes {rest : List Byte} (hs : UnpackerReady s) (hb : s.source = bs ++ rest) :
    ∃ t, feed (List.replicate (8 * bs.length) .upBit) s = some (t, (bs.flatMap bitsOf).map bitRsp) ∧
      Unpacks s bs t := by
  induction bs generalizing s with
  | nil => exact ⟨s, rfl, Unpacks.refl hs⟩
  | cons b bs ih =>
    obtain ⟨t, hf, hp⟩ := feed_upBit_byte hs hb
    have hrest : t.source = bs ++ rest := by simpa [hb] using hp.source.symm
    obtain ⟨u, hf', hp'⟩ := ih hp.ready hrest
    rw [List.length_cons, Nat.mul_succ, Nat.add_comm, List.replicate_add, List.flatMap_cons, List.map_append]
    exact ⟨u, feed_append hf hf', hp.trans hp'⟩

end

end Sys2Proof.Machine

/-! ## The obligations on streams of bits -/

namespace Sys2Proof.Claims
open Sys2Proof.Machine

/-- Settles O21: the bytes are unpacked one after the other, eight commands each. -/
theorem unpackedStreamBits : Obligations.UnpackedStreamBits := by
  intro s bs rest hv hi hb hs
  obtain ⟨t, hf, hp⟩ := feed_upBit_bytes ⟨hv, hi, hb⟩ hs
  exact ⟨t, hf, List.append_cancel_left (hp.source.symm.trans hs), hp.ready.uidx, hp.bytes, hp.bits⟩

/-- Settles O22: the bits of the bytes sent are the pixels and fewer than 8 zeros, and unpacking responds those bits. -/
theorem packThenUnpackRoundTrip : Obligations.PackThenUnpackRoundTrip := by
  rintro s u cs ps rest hv ho hacc hcnt hcs rfl huv hui hub
  have hs : PackerReady s := ⟨hv, ho, by simp [State.accBounded, hacc]⟩
  obtain ⟨t, rs, bs, z, hf, hsink, -, hz, hbits⟩ := feed_flush_sends hcs hs
  obtain ⟨v, hf', -⟩ := feed_upBit_bytes (s := { u with source := bs ++ rest }) ⟨huv, hui, hub⟩ rfl
  have hpend : s.pk.pending = [] := by simp [Packer.pending, hcnt, msbFirst]
  rw [hpend, List.nil_append] at hbits
  have hlen := congrArg List.length hbits
  rw [length_flatMap_bitsOf, List.length_append, List.length_replicate] at hlen
  have hpad : 8 * (((cs.flatMap carried).length + 7) / 8) - (cs.flatMap carried).length = z := by omega
  exact ⟨t, rs, bs, v, hf, hsink, by rw [hpad, hbits, hf']⟩

end Sys2Proof.Claims

/-! ## The frame indexer (R180 to R184) -/

namespace Sys2Proof.Machine
open Sys2Proof.Claims

theorem toNat_eq_zero_iff {n : Nat} {v : BitVec n} : v.toNat = 0 ↔ v = 0 := by simp [BitVec.toNat_eq]

/-- `sel` is the byte's bit `7 - UIDX` (R160). -/
theorem toNat_sel (b : Byte) (k : Nat) : (sel b k).toNat = b.toNat / 2 ^ (7 - k) % 2 := by
  simp [sel, Nat.shiftRight_eq_div_pow]

/-! The numbers that the frame indexer computes -/

theorem FrameIndexer.toNat_configure_res (f : FrameIndexer) (a b : BitVec 13) :
    (f.configure a b).res.toNat = a.toNat * b.toNat :=
  Nat.mod_eq_of_lt (Nat.mul_lt_mul'' (c := 2 ^ 13) (d := 2 ^ 13) a.isLt b.isLt)

theorem FrameIndexer.fullFrames_eq {f : FrameIndexer} (hres : f.res ≠ 0) :
    f.fullFrames = 8 * f.nbytes.toNat / f.res.toNat := if_neg (mt toNat_eq_zero_iff.mp hres)

section
variable {f : FrameIndexer} (hprod : f.res.toNat = f.width.toNat * f.height.toNat)
include hprod

/-- Where R55 item 3 holds, no division of `FI_SPLIT` is by 0. -/
theorem FrameIndexer.split_eq (hres : f.res ≠ 0) :
    f.split =
      { f with
        qf := BitVec.ofNat 32 (f.g.toNat / f.res.toNat)
        qr := BitVec.ofNat 13 (f.g.toNat % f.res.toNat / f.width.toNat)
        qc := BitVec.ofNat 13 (f.g.toNat % f.res.toNat % f.width.toNat) } := by
  have hres : f.res.toNat ≠ 0 := mt toNat_eq_zero_iff.mp hres
  have hwidth : f.width.toNat ≠ 0 := fun h => hres (by rw [hprod, h, Nat.zero_mul])
  simp only [FrameIndexer.split, natDiv, natMod, if_neg hres, if_neg hwidth]

/-- The row and the column of any index are within the frame (R183). -/
theorem FrameIndexer.split_lt (hres : f.res ≠ 0) :
    f.split.qr.toNat < f.height.toNat ∧ f.split.qc.toNat < f.width.toNat := by
  have hpos : 0 < f.width.toNat * f.height.toNat := hprod ▸ Nat.pos_of_ne_zero (mt toNat_eq_zero_iff.mp hres)
  rw [FrameIndexer.split_eq hprod hres]
  constructor
  · refine (Nat.mod_le _ _).trans_lt (Nat.div_lt_of_lt_mul ?_)
    rw [hprod]
    exact Nat.mod_lt _ hpos
  · exact (Nat.mod_le _ _).trans_lt (Nat.mod_lt _ (Nat.pos_of_mul_pos_right hpos))

/-- The index of a row and a column within the frame splits into `FI_FRM` and that row and column (R180). -/
theorem FrameIndexer.split_address (hres : f.res ≠ 0) {a b : BitVec 13} (ha : a.toNat < f.height.toNat)
    (hb : b.toNat < f.width.toNat) (hg : f.address a b < 2 ^ 32) :
    { f with g := BitVec.ofNat 32 (f.address a b) }.split =
      { f with g := BitVec.ofNat 32 (f.address a b), qf := f.frm, qr := a, qc := b } := by
  have hoffset : a.toNat * f.width.toNat + b.toNat < f.res.toNat := calc
    _ < (a.toNat + 1) * f.width.toNat := by rw [Nat.succ_mul]; exact Nat.add_lt_add_left hb _
    _ ≤ f.height.toNat * f.width.toNat := Nat.mul_le_mul_right _ ha
    _ = f.res.toNat := by rw [hprod, Nat.mul_comm]
  obtain ⟨hframe, hrest⟩ : f.address a b / f.res.toNat = f.frm.toNat ∧
      f.address a b % f.res.toNat = a.toNat * f.width.toNat + b.toNat :=
    (Nat.div_mod_unique (by omega)).mpr ⟨by rw [FrameIndexer.address]; ring, hoffset⟩
  obtain ⟨hrow, hcol⟩ : (a.toNat * f.width.toNat + b.toNat) / f.width.toNat = a.toNat ∧
      (a.toNat * f.width.toNat + b.toNat) % f.width.toNat = b.toNat :=
    (Nat.div_mod_unique (by omega)).mpr ⟨by ring, hb⟩
  rw [FrameIndexer.split_eq (f := { f with g := BitVec.ofNat 32 (f.address a b) }) hprod hres]
  simp only [BitVec.toNat_ofNat, Nat.mod_eq_of_lt hg, hframe, hrest, hrow, hcol, BitVec.ofNat_toNat,
    BitVec.setWidth_eq]

end

/-! What the frame-indexer commands answer (R181 to R184) -/

/-- The frame that an error leaves, said of the command's word as R99 writes it (R233). -/
theorem exec_eq_errored {i : Instr} {s : State} {e : CommandError} (hx : exec i s = .next (s.raise (encode i) e)) :
    exec i s = .next (errored s (wordOf i) e.code.toNat) := by
  rw [hx, raise_eq_errored, toNat_encode]

section
variable {s : State}

theorem held_of_isFrameIndexer {i : Instr} (hi : isFrameIndexer i = true) :
    s.held (opcodeOf (encode i)) = s.rsp.v := by
  cases i with
  | fiCfg | fiAddr | fiSplit | fiCount => simp
  | _ => cases hi

theorem exec_frameIndexer_held {i : Instr} (hi : isFrameIndexer i = true) (hv : s.rsp.v = true) :
    exec i s = .next s := exec_held ((held_of_isFrameIndexer hi).trans hv)

variable (hv : s.rsp.v = false) {a b : BitVec 13}
include hv

theorem not_held_of_isFrameIndexer {i : Instr} (hi : isFrameIndexer i = true) :
    s.held (opcodeOf (encode i)) = false := (held_of_isFrameIndexer hi).trans hv

theorem exec_fiCfg_operand (h : a = 0 ∨ b = 0) :
    exec (.fiCfg a b) s = .next (s.raise (encode (.fiCfg a b)) .operand) := by
  simp only [exec, execFiCfg, if_pos h]
  exact runCommand_error _ (not_held_of_isFrameIndexer hv rfl)

theorem exec_fiCfg_ready (ha : a ≠ 0) (hb : b ≠ 0) :
    exec (.fiCfg a b) s =
      .next ((s.withFi (s.fi.configure a b)).respond false (BitVec.ofNat 32 (a.toNat * b.toNat))) := by
  simp only [exec, execFiCfg, if_neg (not_or.mpr ⟨ha, hb⟩)]
  exact runCommand_ok _ _ (not_held_of_isFrameIndexer hv rfl)

theorem exec_fiAddr_nocfg (hres : s.fi.res = 0) :
    exec (.fiAddr a b) s = .next (s.raise (encode (.fiAddr a b)) .nocfg) := by
  simp only [exec, execFiAddr, if_pos hres]
  exact runCommand_error _ (not_held_of_isFrameIndexer hv rfl)

theorem exec_fiAddr_range (hres : s.fi.res ≠ 0)
    (h : s.fi.height.toNat ≤ a.toNat ∨ s.fi.width.toNat ≤ b.toNat ∨ 2 ^ 32 ≤ s.fi.address a b) :
    exec (.fiAddr a b) s = .next (s.raise (encode (.fiAddr a b)) .range) := by
  have hh := not_held_of_isFrameIndexer hv (i := .fiAddr a b) rfl
  by_cases hab : s.fi.height.toNat ≤ a.toNat ∨ s.fi.width.toNat ≤ b.toNat
  · simp only [exec, execFiAddr, if_neg hres, if_pos hab]
    exact runCommand_error _ hh
  · simp only [exec, execFiAddr, if_neg hres, if_neg hab, if_pos ((or_assoc.mpr h).resolve_left hab)]
    exact runCommand_error _ hh

theorem exec_fiAddr_ready (hres : s.fi.res ≠ 0) (ha : a.toNat < s.fi.height.toNat) (hb : b.toNat < s.fi.width.toNat)
    (hg : s.fi.address a b < 2 ^ 32) :
    exec (.fiAddr a b) s =
      .next ((s.withFi { s.fi with g := BitVec.ofNat 32 (s.fi.address a b) }).respond false
        (BitVec.ofNat 32 (s.fi.address a b))) := by
  simp only [exec, execFiAddr, if_neg hres, if_neg (not_or.mpr ⟨ha.not_ge, hb.not_ge⟩), if_neg hg.not_ge]
  exact runCommand_ok _ _ (not_held_of_isFrameIndexer hv rfl)

theorem exec_fiSplit_nocfg (hres : s.fi.res = 0) :
    exec .fiSplit s = .next (s.raise (encode .fiSplit) .nocfg) := by
  simp only [exec, execFiSplit, if_pos hres]
  exact runCommand_error _ (not_held_of_isFrameIndexer hv rfl)

theorem exec_fiSplit_ready (hres : s.fi.res ≠ 0) :
    exec .fiSplit s = .next ((s.withFi s.fi.split).respond false s.fi.split.qf) := by
  simp only [exec, execFiSplit, if_neg hres]
  exact runCommand_ok _ _ (not_held_of_isFrameIndexer hv rfl)

theorem exec_fiCount_nocfg (hres : s.fi.res = 0) :
    exec .fiCount s = .next (s.raise (encode .fiCount) .nocfg) := by
  simp only [exec, execFiCount, if_pos hres]
  exact runCommand_error _ (not_held_of_isFrameIndexer hv rfl)

theorem exec_fiCount_empty (hres : s.fi.res ≠ 0) (h0 : s.fi.fullFrames = 0) :
    exec .fiCount s = .next (s.raise (encode .fiCount) .empty) := by
  simp only [exec, execFiCount, if_neg hres, if_pos h0]
  exact runCommand_error _ (not_held_of_isFrameIndexer hv rfl)

theorem exec_fiCount_range (hres : s.fi.res ≠ 0) (hf : 2 ^ 32 ≤ s.fi.fullFrames) :
    exec .fiCount s = .next (s.raise (encode .fiCount) .range) := by
  simp only [exec, execFiCount, if_neg hres, if_neg (show s.fi.fullFrames ≠ 0 by omega), if_pos hf]
  exact runCommand_error _ (not_held_of_isFrameIndexer hv rfl)

theorem exec_fiCount_ready (hres : s.fi.res ≠ 0) (h0 : s.fi.fullFrames ≠ 0) (hf : s.fi.fullFrames < 2 ^ 32) :
    exec .fiCount s =
      .next ((s.withFi { s.fi with frames := BitVec.ofNat 32 s.fi.fullFrames }).respond false
        (BitVec.ofNat 32 s.fi.fullFrames)) := by
  simp only [exec, execFiCount, if_neg hres, if_neg h0, if_neg hf.not_ge]
  exact runCommand_ok _ _ (not_held_of_isFrameIndexer hv rfl)

/-- A `FI_ADDR` that responds without error has passed R182's checks, and wrote and responded the index. -/
theorem fiAddr_of_no_error {t : State} (hx : exec (.fiAddr a b) s = .next t) (he : t.rsp.err = false) :
    s.fi.res ≠ 0 ∧ a.toNat < s.fi.height.toNat ∧ b.toNat < s.fi.width.toNat ∧ s.fi.address a b < 2 ^ 32 ∧
      t = (s.withFi { s.fi with g := BitVec.ofNat 32 (s.fi.address a b) }).respond false
        (BitVec.ofNat 32 (s.fi.address a b)) := by
  rcases exec_ready (not_held_of_isFrameIndexer hv (i := .fiAddr a b) rfl) with ⟨u, d, hu, -⟩ | ⟨e, -, hx'⟩
  · cases hu with
    | fiAddr _ _ hres ha hb hg =>
      cases hx.symm.trans (exec_fiAddr_ready hv hres ha hb hg)
      exact ⟨hres, ha, hb, hg, rfl⟩
  · cases hx.symm.trans hx'
    cases he

end

end Sys2Proof.Machine

/-! ## The obligations on the frame indexer -/

namespace Sys2Proof.Claims
open Sys2Proof.Machine

/-- Settles O23: a product of two numbers below `2^13` fits the 26 bits of `FI_RES`. -/
theorem fiCfgSetsDimensions : Obligations.FiCfgSetsDimensions := by
  refine ⟨fun w a b => (legalWordsMatchTable w).1 (.fiCfg a b),
    fun s a b => ⟨exec_frameIndexer_held rfl, fun hv h0 => ?_, fun hv ha hb => ?_⟩⟩
  · exact exec_eq_errored (exec_fiCfg_operand hv (h0.imp toNat_eq_zero_iff.mp toNat_eq_zero_iff.mp))
  · exact ⟨_, exec_fiCfg_ready hv (mt toNat_eq_zero_iff.mpr ha) (mt toNat_eq_zero_iff.mpr hb),
      s.fi.toNat_configure_res a b, rfl⟩

/-- Settles O24: the rule's checks are R182's, on the exact index. -/
theorem fiAddrComputesIndex : Obligations.FiAddrComputesIndex := by
  refine ⟨fun w a b => (legalWordsMatchTable w).1 (.fiAddr a b), ?_⟩
  rintro s a b g rfl
  refine ⟨exec_frameIndexer_held rfl, fun hv h0 => ?_, fun hv hres h => ?_, fun hv hres ha hb hg => ?_⟩
  · exact exec_eq_errored (exec_fiAddr_nocfg hv (toNat_eq_zero_iff.mp h0))
  · exact exec_eq_errored (exec_fiAddr_range hv (mt toNat_eq_zero_iff.mpr hres) h)
  · exact exec_fiAddr_ready hv (mt toNat_eq_zero_iff.mpr hres) ha hb hg

/-- Settles O25: with `FI_RES = FI_WIDTH × FI_HEIGHT` nonzero, no division is by 0 and the results fit. -/
theorem fiSplitSplitsIndex : Obligations.FiSplitSplitsIndex := by
  refine ⟨fun w => (legalWordsMatchTable w).1 .fiSplit,
    fun s => ⟨exec_frameIndexer_held rfl, fun hv h0 => ?_, fun hv ⟨hprod, _⟩ hres => ?_⟩⟩
  · exact exec_eq_errored (exec_fiSplit_nocfg hv (toNat_eq_zero_iff.mp h0))
  · have hres : s.fi.res ≠ 0 := mt toNat_eq_zero_iff.mpr hres
    refine ⟨_, exec_fiSplit_ready hv hres, ?_, FrameIndexer.split_lt hprod hres⟩
    rw [FrameIndexer.split_eq hprod hres]
    rfl

/-- Settles O26: the rule's checks are R184's, on the exact number of full frames. -/
theorem fiCountCountsFullFrames : Obligations.FiCountCountsFullFrames := by
  refine ⟨fun w => (legalWordsMatchTable w).1 .fiCount, ?_⟩
  rintro s fr rfl
  refine ⟨exec_frameIndexer_held rfl,
    fun hv h0 => exec_eq_errored (exec_fiCount_nocfg hv (toNat_eq_zero_iff.mp h0)), ?_⟩
  by_cases hres : s.fi.res = 0
  · simp [hres]
  · rw [← FrameIndexer.fullFrames_eq hres]
    exact ⟨fun hv _ h0 => exec_eq_errored (exec_fiCount_empty hv hres h0),
      fun hv _ hbig => exec_eq_errored (exec_fiCount_range hv hres hbig),
      fun hv _ h0 hlt => exec_fiCount_ready hv hres h0 hlt⟩

/-- Settles O27: the index that `FI_ADDR` wrote splits into `FI_FRM` and the row and column it was given. -/
theorem splitInvertsAddr : Obligations.SplitInvertsAddr := by
  rintro s t a b ⟨hprod, -⟩ hv hx he
  obtain ⟨hres, ha, hb, hg, rfl⟩ := fiAddr_of_no_error hv hx he
  have hsplit := FrameIndexer.split_address hprod hres ha hb hg
  refine ⟨_, _, feed_cons hx (feed_cons (exec_fiSplit_ready rfl hres) rfl), ?_⟩
  simp [hsplit, State.rspPort]

/-- Settles O28: `FI_G` is 8 times its byte's index and the rest, which counts bits from the byte's bit 7 down. -/
theorem derivedRegistersLocatePixel : Obligations.DerivedRegistersLocatePixel := by
  intro s bs
  have haddr : (s.readReg .fiBaddr).toNat = s.fi.g.toNat / 8 := toNat_fiBaddr s.fi.g
  have hsel : (s.readReg .fiBsel).toNat = 7 - s.fi.g.toNat % 8 := toNat_fiBsel s.fi.g
  refine ⟨haddr, hsel, fun b hb => ?_⟩
  rw [haddr] at hb
  have hbit := getElem?_flatMap_bitsOf hb (Nat.mod_lt s.fi.g.toNat (by decide))
  rw [Nat.div_add_mod] at hbit
  rw [hsel]
  exact ⟨hbit, toNat_sel b _⟩

end Sys2Proof.Claims

/-! ## The playback scheduler (R200 to R219) -/

namespace Sys2Proof.Machine
open Sys2Proof.Claims

/-! The scheduler's step, branch by branch (R203) -/

section
variable {sc : Scheduler} {now : Word} {i : Inputs}

theorem Scheduler.step_waitReady (hst : sc.st = .waitReady) :
    (sc.step now i).sc = if i.frameReady then { sc with fstart := now, st := .render } else sc := by
  simp only [Scheduler.step, hst, apply_ite SchedStep.sc]

theorem Scheduler.step_failed (hst : sc.st = .render) (he : i.rdErr = true) :
    (sc.step now i).sc = sc.enterFault .render := by
  simp [Scheduler.step, hst, he]

theorem Scheduler.step_unanswered (hst : sc.st = .render) (he : i.rdErr = false) (hd : i.rdDone = false) :
    (sc.step now i).sc = sc := by
  simp [Scheduler.step, hst, he, hd]

theorem Scheduler.step_answered (hst : sc.st = .render) (he : i.rdErr = false) (hd : i.rdDone = true) :
    sc.step now i = sc.rendered now := by
  simp [Scheduler.step, hst, he, hd]

theorem Scheduler.step_asleep (hst : sc.st = .sleep) (h0 : sc.sleep ≠ 0) :
    (sc.step now i).sc = if i.tick then { sc with sleep := sc.sleep - 1 } else sc := by
  simp only [Scheduler.step, hst, if_neg h0, apply_ite SchedStep.sc]

/-- The registers while `n` ticks of the sleep are left. -/
def Scheduler.sleeping (sc : Scheduler) (n : Nat) : Scheduler := { sc with sleep := BitVec.ofNat 32 n }

theorem Scheduler.step_sleeping {n : Nat} (hst : sc.st = .sleep) (hn : n + 1 < 2 ^ 32) (htick : i.tick = true) :
    ((sc.sleeping (n + 1)).step now i).sc = sc.sleeping n := by
  have hne : BitVec.ofNat 32 (n + 1) ≠ 0 := mt toNat_eq_zero_iff.mpr (by simp; omega)
  rw [step_asleep (sc := sc.sleeping (n + 1)) hst hne, if_pos htick]
  simp [sleeping, BitVec.ofNat_add]

/-- A sleep ends with the next index, in `DONE` after the last frame (R212). -/
theorem Scheduler.step_awake (hst : sc.st = .sleep) (h0 : sc.sleep = 0) :
    (sc.step now i).sc =
      { sc with
        fidx := sc.fidx + 1
        st := if sc.fidx.toNat + 1 = sc.nframes.toNat then .done else .waitReady } := by
  simp only [Scheduler.step, hst, if_pos h0, Scheduler.sleepOver]
  split <;> rfl

theorem Scheduler.rendered_overrun (h : (sc.interval.toNat : Int) < sc.elapsed now) :
    (sc.rendered now).sc = { sc with debt := 0, sleep := 0, st := .sleep } := by
  simp only [Scheduler.rendered, if_pos h]

theorem Scheduler.rendered_debtovf (hle : sc.elapsed now ≤ sc.interval.toNat)
    (h : sc.elapsed now - sc.interval.toNat < -2 ^ 31) : (sc.rendered now).sc = sc.enterFault .debtovf := by
  simp only [Scheduler.rendered, if_neg hle.not_gt, if_pos h]

/-- A frame that leaves `S` ticks of its interval, or that overruns with `S = 0`, sleeps `S` ticks and owes `-S` (R208 to R210). -/
theorem Scheduler.rendered_sleeps {S : Nat} (hS : S ≤ 2 ^ 31)
    (h : sc.elapsed now + S = sc.interval.toNat ∨ S = 0 ∧ (sc.interval.toNat : Int) < sc.elapsed now) :
    ∃ d w : Word, d.toInt = -(S : Int) ∧ w.toNat = S ∧
      (sc.rendered now).sc = { sc with debt := d, sleep := w, st := .sleep } := by
  rcases h with h | ⟨rfl, h⟩
  · have hnd : sc.elapsed now - sc.interval.toNat = -(S : Int) := by omega
    refine ⟨BitVec.ofInt 32 (-S), BitVec.ofNat 32 S, BitVec.toInt_ofInt_eq_self (by decide) (by omega) (by omega),
      Nat.mod_eq_of_lt (by omega), ?_⟩
    simp only [Scheduler.rendered, hnd, if_neg (show ¬ (sc.interval.toNat : Int) < sc.elapsed now by omega),
      if_neg (show ¬ -(S : Int) < -2 ^ 31 by omega), neg_neg, BitVec.ofInt_natCast]
  · exact ⟨0, 0, rfl, rfl, rendered_overrun h⟩

/-- `elapsed` for a frame that began `m` ticks ago (R207). -/
theorem Scheduler.elapsed_eq_add {m : Nat} (hm : m < 2 ^ 32) (hnow : now = sc.fstart + BitVec.ofNat 32 m) :
    sc.elapsed now = m + sc.debt.toInt := by
  subst hnow
  simp only [Scheduler.elapsed, BitVec.add_comm sc.fstart, BitVec.add_sub_cancel, BitVec.toNat_ofNat,
    Nat.mod_eq_of_lt hm]

end

/-! One cycle -/

/-- A cycle of a running scheduler: its registers are the scheduler step's, whatever command the cycle accepts (R264, R265). -/
theorem step_of_running {s : State} (hrst : s.inputs.rst = false) (hrun : Running s) :
    ∃ t, step s = .next t ∧ t.sc = (s.sc.step s.now s.inputs).sc ∧
      t.schedule = s.schedule.tail ∧ t.now = s.now + zext32 (bit s.inputs.tick) := by
  obtain ⟨u, hu, hs⟩ := step_running hrst
  refine ⟨_, hs, ?_, rfl, rfl⟩
  rw [State.closeCycle_sc, hu.mergeSched_eq, if_pos ((running_iff s).mp hrun), State.schedStep]

/-- An accepted word that changes the scheduler's registers is `SC_START`'s or a `WR`'s, and a `WR` keeps `SC_ST` (R265 step 2). -/
theorem CommandPhase.sc_cases {s u : State} (hu : CommandPhase s u) :
    u.sc = s.sc ∨ ∃ w, s.accepted = some w ∧
      (w.toNat = 0x80000000 ∨ (0x08000000 ≤ w.toNat ∧ w.toNat < 0x0C000000) ∧ u.sc.st = s.sc.st) := by
  cases hu with
  | idle | illegal | raised => exact .inl rfl
  | done w i u d ha hd he =>
    have hw : w.toNat = wordOf i := by rw [← encode_of_decode hd, toNat_encode]
    cases he with
    | scStart => exact .inr ⟨w, ha, .inl hw⟩
    | wrInterval h reg imm | wrNframes h reg imm =>
      refine .inr ⟨w, ha, .inr ⟨?_, rfl⟩⟩
      have := h.isLt; have := reg.isLt; have := imm.isLt
      rw [hw, wordOf, wrWord]
      omega
    | _ => exact .inl rfl

/-! What `SC_START` answers (R202) -/

section
variable {s : State} (hv : s.rsp.v = false)
include hv

theorem not_held_scStart : s.held (opcodeOf (encode .scStart)) = false := by simpa using hv

theorem exec_scStart_busy (hrun : Running s) : exec .scStart s = .next (s.raise (encode .scStart) .busy) := by
  simp only [exec, execScStart, if_pos ((running_iff s).mp hrun)]
  exact runCommand_error _ (not_held_scStart hv)

variable (hstop : ¬ Running s)
include hstop

theorem exec_scStart_operand (h : s.sc.interval = 0 ∨ s.sc.nframes = 0) :
    exec .scStart s = .next (s.raise (encode .scStart) .operand) := by
  simp only [exec, execScStart, if_neg (mt (running_iff s).mpr hstop), if_pos h]
  exact runCommand_error _ (not_held_scStart hv)

variable (hconf : ¬ (s.sc.interval = 0 ∨ s.sc.nframes = 0))
include hconf

theorem exec_scStart_empty (hfr : s.fi.frames = 0) :
    exec .scStart s = .next (s.raise (encode .scStart) .empty) := by
  simp only [exec, execScStart, if_neg (mt (running_iff s).mpr hstop), if_neg hconf, if_pos hfr]
  exact runCommand_error _ (not_held_scStart hv)

theorem exec_scStart_range (hfr : s.fi.frames ≠ 0) (hlt : s.fi.frames.toNat < s.sc.nframes.toNat) :
    exec .scStart s = .next (s.raise (encode .scStart) .range) := by
  simp only [exec, execScStart, if_neg (mt (running_iff s).mpr hstop), if_neg hconf, if_neg hfr, if_pos hlt]
  exact runCommand_error _ (not_held_scStart hv)

theorem exec_scStart_ready (hfr : s.fi.frames ≠ 0) (hle : s.sc.nframes.toNat ≤ s.fi.frames.toNat) :
    exec .scStart s = .next ((s.withSc s.sc.start).respond false 0) := by
  simp only [exec, execScStart, if_neg (mt (running_iff s).mpr hstop), if_neg hconf, if_neg hfr, if_neg hle.not_gt]
  exact runCommand_ok _ _ (not_held_scStart hv)

end

end Sys2Proof.Machine

/-! ## The obligations on single cycles of the scheduler -/

namespace Sys2Proof.Claims
open Sys2Proof.Machine

/-- Settles O29: the rule's checks are R202's, in its order. -/
theorem scStartStartsPlayback : Obligations.ScStartStartsPlayback := by
  refine ⟨fun w => (legalWordsMatchTable w).1 .scStart, fun s => ⟨fun hv => exec_held (by simpa using hv), ?_⟩⟩
  simp only [ne_eq, toNat_eq_zero_iff]
  refine ⟨fun hv hrun => exec_eq_errored (exec_scStart_busy hv hrun),
    fun hv hstop h => exec_eq_errored (exec_scStart_operand hv hstop h),
    fun hv hstop hint hn h0 => exec_eq_errored (exec_scStart_empty hv hstop (not_or.mpr ⟨hint, hn⟩) h0),
    fun hv hstop hint hfr hlt => ?_, fun hv hstop hint hn hle => ?_⟩
  · have hn : s.sc.nframes ≠ 0 := fun h => by simp [h] at hlt
    exact exec_eq_errored (exec_scStart_range hv hstop (not_or.mpr ⟨hint, hn⟩) hfr hlt)
  · have hfr : s.fi.frames ≠ 0 := fun h => hn (by simpa [h, toNat_eq_zero_iff] using hle)
    exact exec_scStart_ready hv hstop (not_or.mpr ⟨hint, hn⟩) hfr hle

/-- Settles O30: in `WAIT_READY` the scheduler's step reads `frame_ready` and nothing of the command. -/
theorem gateStartsFrame : Obligations.GateStartsFrame := by
  intro s hrst hst
  obtain ⟨t, hs, hsc, -⟩ := step_of_running hrst (.inl hst)
  exact ⟨t, hs, hsc.trans (Scheduler.step_waitReady hst)⟩

/-- Settles O31: `rd_err` is tested before `rd_done`, and is a fault event of R265. -/
theorem renderFailureFaults : Obligations.RenderFailureFaults := by
  intro s hrst hst
  obtain ⟨t, hs, hsc, -⟩ := step_of_running hrst (.inr (.inl hst))
  refine ⟨fun he => ⟨t, hs, hsc.trans (Scheduler.step_failed hst he), ?_⟩,
    fun he hd => ⟨t, hs, hsc.trans (Scheduler.step_unanswered hst he hd)⟩⟩
  obtain ⟨-, hfault, -⟩ := statusSetWinsOverClear s t hrst hs
  exact hfault.mpr (.inr ⟨hst, .inl he⟩)

/-- Settles O32: an answer beyond the interval takes the overrun branch. -/
theorem overrunResetsDebt : Obligations.OverrunResetsDebt := by
  intro s hrst hst he hd hover
  obtain ⟨t, hs, hsc, -⟩ := step_of_running hrst (.inr (.inl hst))
  rw [Scheduler.step_answered hst he hd, Scheduler.rendered_overrun (by rwa [elapsed_eq])] at hsc
  exact ⟨t, hs, hsc⟩

/-- Settles O33: slack of at most `2^31` ticks fits both registers, and more is a fault event of R265. -/
theorem slackBecomesDebt : Obligations.SlackBecomesDebt := by
  intro s hrst hst he hd hle
  obtain ⟨t, hs, hsc, -⟩ := step_of_running hrst (.inr (.inl hst))
  rw [Scheduler.step_answered hst he hd] at hsc
  refine ⟨fun hge => ⟨t, hs, ?_⟩, fun hlt => ⟨t, hs, ?_, ?_⟩⟩
  · obtain ⟨S, hS⟩ := Int.eq_ofNat_of_zero_le (sub_nonneg.mpr hle)
    obtain ⟨d, w, hdebt, hsleep, hx⟩ := s.sc.rendered_sleeps (now := s.now) (S := S) (by omega)
      (.inl (by rw [elapsed_eq]; omega))
    rw [hsc, hx]
    exact ⟨by dsimp only; omega, by dsimp only; omega, rfl⟩
  · rw [← elapsed_eq] at hle hlt
    exact hsc.trans (Scheduler.rendered_debtovf hle hlt)
  · obtain ⟨-, hfault, -⟩ := statusSetWinsOverClear s t hrst hs
    exact hfault.mpr (.inr ⟨hst, .inr ⟨hd, hle, hlt⟩⟩)

/-- Settles O34: a sleep of 0 ends, in `DONE` after the last frame, and any other counts the ticks. -/
theorem sleepCountsTicks : Obligations.SleepCountsTicks := by
  intro s hrst hst
  obtain ⟨t, hs, hsc, -⟩ := step_of_running hrst (.inr (.inr hst))
  refine ⟨fun h0 => ⟨t, hs, hsc.trans (Scheduler.step_asleep hst h0)⟩, fun h0 hlast => ⟨t, hs, ?_, ?_⟩,
    fun h0 hnext => ⟨t, hs, ?_⟩⟩
  · have hf : s.sc.fidx + 1 = s.sc.nframes := BitVec.eq_of_toNat_eq (by have := s.sc.nframes.isLt; simp; omega)
    rw [hsc, Scheduler.step_awake hst h0, if_pos hlast, hf]
  · obtain ⟨hdone, -⟩ := statusSetWinsOverClear s t hrst hs
    exact hdone.mpr (.inr ⟨hst, h0, hlast⟩)
  · rw [hsc, Scheduler.step_awake hst h0, if_neg hnext]

/-- Settles O37: the debt of `k` frames and the slack of one more are the debt of `k + 1`. -/
theorem constantRenderGrowsSleep : Obligations.ConstantRenderGrowsSleep := by
  intro s m k hrst hst he hd hnow hm hdebt hfit
  obtain ⟨t, hs, hsc, -⟩ := step_of_running hrst (.inr (.inl hst))
  have hsum : s.sc.elapsed s.now + ((k + 1) * (s.sc.interval.toNat - m) : Nat) = s.sc.interval.toNat := by
    rw [Scheduler.elapsed_eq_add (hm.trans_lt s.sc.interval.isLt) hnow, hdebt, Nat.succ_mul]
    omega
  obtain ⟨d, w, hdebt', hsleep, hx⟩ := Scheduler.rendered_sleeps hfit (.inl hsum)
  refine ⟨t, hs, ?_⟩
  rw [hsc, Scheduler.step_answered hst he hd, hx]
  exact ⟨rfl, hdebt', hsleep⟩

/-- Settles O38: neither the scheduler's step nor a command changes the configuration of a running scheduler. -/
theorem runningConfigIsConstant : Obligations.RunningConfigIsConstant := by
  intro s t hrun hrst hs
  obtain ⟨t', hs', hsc, -⟩ := step_of_running hrst hrun
  cases hs.symm.trans hs'
  rw [hsc]
  exact schedStep_config s.sc s.now s.inputs

/-- Settles O40: the edge of a stopped scheduler keeps the command's registers, and both events need a running one. -/
theorem stoppedSchedulerTakesNoStep : Obligations.StoppedSchedulerTakesNoStep := by
  intro s hstop hrst
  obtain ⟨u, hu, hs⟩ := step_running hrst
  have hsc : (s.closeCycle u).sc = u.sc := (closes_closeCycle hrst (absurd · hstop)).stopped hstop
  obtain ⟨hdone, hfault, -⟩ := statusSetWinsOverClear s _ hrst hs
  refine ⟨?_, _, hs, fun hno => ?_, fun hno => ?_, fun h => ?_, fun h => ?_⟩
  · simpa [State.rdReq, hrst] using fun h => hstop (.inr (.inl h))
  · rw [hsc]
    obtain h | ⟨w, ha, hw | ⟨-, hst⟩⟩ := hu.sc_cases
    · rw [h]
    · obtain ⟨rest, hp, hr⟩ := accepted_eq_some_iff.mp ha
      exact absurd hw (hno w rest hp hr)
    · exact hst
  · rw [hsc]
    obtain h | ⟨w, ha, hw⟩ := hu.sc_cases
    · exact h
    · obtain ⟨rest, hp, hr⟩ := accepted_eq_some_iff.mp ha
      exact absurd (hw.imp_right And.left) (hno w rest hp hr)
  · exact ((hdone.mp h).resolve_right fun ⟨hst, _⟩ => hstop (.inr (.inr hst))).1
  · exact ((hfault.mp h).resolve_right fun ⟨hst, _⟩ => hstop (.inr (.inl hst))).1

end Sys2Proof.Claims

/-! ## Cycles with a tick in each (R211, R218) -/

namespace Sys2Proof.Machine
open Sys2Proof.Claims

theorem after_add (m n : Nat) (s : State) : after (m + n) s = (after m s).bind (after n) := by
  induction m generalizing s with
  | zero => rw [Nat.zero_add]; rfl
  | succ m ih =>
    rw [Nat.succ_add, after, after]
    split
    · exact ih _
    · rfl

/-- `n` cycles with a tick in each lead from `s` to `t`. -/
structure TicksTo (s : State) (n : Nat) (t : State) : Prop where
  reached : after n s = some t
  schedule : t.schedule = s.schedule.drop n
  now : t.now = s.now + BitVec.ofNat 32 n

section
variable {s t u : State} {m n : Nat}

theorem TicksTo.refl (s : State) : TicksTo s 0 s := ⟨rfl, rfl, by simp⟩

theorem TicksTo.trans (h : TicksTo s m t) (h' : TicksTo t n u) : TicksTo s (m + n) u where
  reached := by rw [after_add, h.reached]; exact h'.reached
  schedule := by rw [h'.schedule, h.schedule, List.drop_drop]
  now := by rw [h'.now, h.now, BitVec.ofNat_add, BitVec.add_assoc]

/-- The inputs that are due after `n` cycles, `k` cycles ahead. -/
theorem TicksTo.getElem?_schedule (h : TicksTo s n t) (k : Nat) : t.schedule[k]? = s.schedule[n + k]? := by
  rw [h.schedule, List.getElem?_drop]

/-- One cycle of a running scheduler with a tick. -/
theorem exists_ticksTo_one {i : Inputs} (hi : s.schedule[0]? = some i) (hrst : i.rst = false) (htick : i.tick = true)
    (hrun : Running s) : ∃ t, step s = .next t ∧ TicksTo s 1 t ∧ t.sc = (s.sc.step s.now i).sc := by
  have hin : s.inputs = i := by
    unfold State.inputs
    split <;> simp_all
  obtain ⟨t, hs, hsc, hsch, hnow⟩ := step_of_running (hin ▸ hrst) hrun
  rw [hin] at hsc hnow
  exact ⟨t, hs, ⟨by simp [after, hs], by rw [hsch, List.drop_one], by rw [hnow, htick]; rfl⟩, hsc⟩

/-- A running scheduler goes through the registers `f 0`, `f 1`, …, where its step goes from each to the next. -/
theorem exists_ticksTo (f : Nat → Scheduler) (h0 : s.sc = f 0)
    (h : ∀ k < n, ∃ i, s.schedule[k]? = some i ∧ i.rst = false ∧ i.tick = true ∧ (f k).st.running = true ∧
      ∀ now, ((f k).step now i).sc = f (k + 1)) :
    ∃ t, TicksTo s n t ∧ t.sc = f n := by
  induction n with
  | zero => exact ⟨s, .refl s, h0⟩
  | succ n ih =>
    obtain ⟨t, ht, htsc⟩ := ih fun k hk => h k (by omega)
    obtain ⟨i, hi, hrst, htick, hrun, hf⟩ := h n (by omega)
    obtain ⟨u, -, hu, husc⟩ := exists_ticksTo_one ((ht.getElem?_schedule 0).trans hi) hrst htick
      ((running_iff t).mpr (by rwa [htsc]))
    exact ⟨u, ht.trans hu, by rw [husc, htsc, hf]⟩

theorem getElem?_schedule {is rest : List Inputs} (h : s.schedule = is ++ rest) {k : Nat} (hk : k < is.length) :
    s.schedule[k]? = some is[k] := by
  rw [h, List.getElem?_append_left hk, List.getElem?_eq_getElem hk]

/-- A sleep of `S` ticks counts down for `S` cycles, and one more ends it (R211, R212). -/
theorem exists_ticksTo_awake {S : Nat} (hst : s.sc.st = .sleep) (hS : s.sc.sleep.toNat = S)
    (h : ∀ k < S + 1, ∃ i, s.schedule[k]? = some i ∧ i.rst = false ∧ i.tick = true) :
    ∃ t u, TicksTo s S t ∧ t.sc = { s.sc with sleep := 0 } ∧ step t = .next u ∧ TicksTo t 1 u ∧
      u.sc = { s.sc with
        sleep := 0
        fidx := s.sc.fidx + 1
        st := if s.sc.fidx.toNat + 1 = s.sc.nframes.toNat then .done else .waitReady } := by
  have h0 : s.sc = s.sc.sleeping S := by simp [Scheduler.sleeping, ← hS]
  obtain ⟨t, ht, htsc⟩ := exists_ticksTo (fun k => s.sc.sleeping (S - k)) h0 fun k hk => by
    obtain ⟨i, hi, hrst, htick⟩ := h k (Nat.lt_succ_of_lt hk)
    have hlt := s.sc.sleep.isLt
    refine ⟨i, hi, hrst, htick, by simp [Scheduler.sleeping, hst, SchedState.running], fun now => ?_⟩
    rw [show S - k = S - (k + 1) + 1 by omega]
    exact Scheduler.step_sleeping hst (by omega) htick
  rw [Nat.sub_self] at htsc
  obtain ⟨i, hi, hrst, htick⟩ := h S (by omega)
  obtain ⟨u, hs, hu, husc⟩ := exists_ticksTo_one ((ht.getElem?_schedule 0).trans hi) hrst htick
    (.inr (.inr (by rw [htsc]; exact hst)))
  refine ⟨t, u, ht, htsc, hs, hu, ?_⟩
  rw [husc, htsc]
  exact Scheduler.step_awake hst rfl

/-- A render that nothing answers goes on (R205). -/
theorem exists_ticksTo_unanswered (hst : s.sc.st = .render)
    (h : ∀ k < n, ∃ i, s.schedule[k]? = some i ∧
      i.rst = false ∧ i.tick = true ∧ i.rdErr = false ∧ i.rdDone = false) :
    ∃ t, TicksTo s n t ∧ t.sc = s.sc := by
  refine exists_ticksTo (fun _ => s.sc) rfl fun k hk => ?_
  obtain ⟨i, hi, hrst, htick, herr, hdone⟩ := h k hk
  exact ⟨i, hi, hrst, htick, by rw [hst]; rfl, fun now => Scheduler.step_unanswered hst herr hdone⟩

/-- The inputs of cycle `k` of a frame that is answered in cycle `m`, with a tick in each cycle and the gate open (R218). -/
def FrameCycle (m k : Nat) (i : Inputs) : Prop :=
  i.rst = false ∧ i.tick = true ∧ i.frameReady = true ∧ i.rdErr = false ∧ (i.rdDone = true ↔ k = m)

/-- A frame whose gate opens is answered `m` cycles later, and then sleeps `S` ticks (R204 to R210). -/
theorem exists_ticksTo_asleep {S : Nat} (hst : s.sc.st = .waitReady) (hm1 : 1 ≤ m) (hm : m < 2 ^ 32) (hS : S ≤ 2 ^ 31)
    (hslack : (m : Int) + s.sc.debt.toInt + S = s.sc.interval.toNat ∨
      S = 0 ∧ (s.sc.interval.toNat : Int) < (m : Int) + s.sc.debt.toInt)
    (h : ∀ k < m + 1, ∃ i, s.schedule[k]? = some i ∧ FrameCycle m k i) :
    ∃ t, ∃ d w : Word, TicksTo s (m + 1) t ∧ d.toInt = -(S : Int) ∧ w.toNat = S ∧
      t.sc = { s.sc with fstart := s.now, debt := d, sleep := w, st := .sleep } := by
  obtain ⟨i, hi, hrst, htick, hready, -⟩ := h 0 (by omega)
  obtain ⟨t, -, ht, htsc⟩ := exists_ticksTo_one hi hrst htick (.inl hst)
  rw [Scheduler.step_waitReady hst, if_pos hready] at htsc
  obtain ⟨v, hv, hvsc⟩ := exists_ticksTo_unanswered (s := t) (n := m - 1) (by rw [htsc]) fun k hk => by
    obtain ⟨i, hi, hrst, htick, -, herr, hdone⟩ := h (1 + k) (by omega)
    exact ⟨i, (ht.getElem?_schedule k).trans hi, hrst, htick, herr, by simpa using mt hdone.mp (by omega)⟩
  have hsv := ht.trans hv
  rw [show 1 + (m - 1) = m by omega] at hsv
  rw [htsc] at hvsc
  obtain ⟨i, hi, hrst, htick, -, herr, hdone⟩ := h m (by omega)
  obtain ⟨u, -, hu, husc⟩ := exists_ticksTo_one ((hsv.getElem?_schedule 0).trans hi) hrst htick
    (.inr (.inl (by rw [hvsc])))
  have hel : v.sc.elapsed v.now = m + s.sc.debt.toInt := by
    rw [hvsc]
    exact Scheduler.elapsed_eq_add hm hsv.now
  obtain ⟨d, w, hd, hw, hx⟩ := v.sc.rendered_sleeps (now := v.now) hS (by rw [hel, hvsc]; exact hslack)
  refine ⟨u, d, w, hsv.trans hu, hd, hw, ?_⟩
  rw [husc, Scheduler.step_answered (by rw [hvsc]) herr (hdone.mpr rfl), hx, hvsc]

end

end Sys2Proof.Machine

/-! ## The obligations on sleeps and frames -/

namespace Sys2Proof.Claims
open Sys2Proof.Machine

/-- Settles O35: the sleep counts down one tick in each cycle, and the cycle that begins with 0 ends it. -/
theorem sleepLastsItsTicks : Obligations.SleepLastsItsTicks := by
  intro S s is rest hst hS hsch hlen hin
  obtain ⟨t, u, ht, htsc, hs, -, husc⟩ := exists_ticksTo_awake hst hS fun k hk => by
    have hk' : k < is.length := by omega
    exact ⟨is[k], getElem?_schedule hsch hk', hin _ (List.getElem_mem hk')⟩
  refine ⟨t, u, ht.reached, htsc, hs, ?_, by rw [husc]⟩
  rw [husc]
  dsimp only
  split
  · exact .inl rfl
  · exact .inr rfl

/-- Settles O36: `m + 1` cycles from the gate to the sleep, `S` cycles of it, and the one that ends it. -/
theorem framePeriod : Obligations.FramePeriod := by
  intro s m S is rest hst hm1 hm hS hslack hnext hsch hlen hin
  have hdue (k : Nat) (hk : k < m + S + 2) : ∃ i, s.schedule[k]? = some i ∧ FrameCycle m k i := by
    have hk' : k < is.length := by omega
    exact ⟨is[k], getElem?_schedule hsch hk', hin k _ (List.getElem?_eq_getElem hk')⟩
  obtain ⟨t, d, w, ht, hd, hw, htsc⟩ := exists_ticksTo_asleep hst hm1 hm hS hslack fun k hk => hdue k (by omega)
  obtain ⟨v, u, hv, -, -, hu, husc⟩ := exists_ticksTo_awake (s := t) (S := S) (by rw [htsc]) (by rw [htsc]; exact hw)
    fun k hk => by
      obtain ⟨i, hi, hrst, htick, -⟩ := hdue (m + 1 + k) (by omega)
      exact ⟨i, (ht.getElem?_schedule k).trans hi, hrst, htick⟩
  have hsu := (ht.trans hv).trans hu
  rw [show m + 1 + S + 1 = m + S + 2 by omega] at hsu
  rw [htsc] at husc
  refine ⟨u, hsu.reached, ?_⟩
  rw [husc]
  exact ⟨if_neg hnext, rfl, hd, rfl, hsu.now⟩

end Sys2Proof.Claims

/-! ## Error codes and progress (R230, R233, R237) -/

namespace Sys2Proof.Machine

theorem CommandError.code_le_seven (e : CommandError) : e.code.toNat ≤ 7 := by cases e <;> decide

theorem CommandError.two_le_code {e : CommandError} (h : e ≠ .illegal) : 2 ≤ e.code.toNat := by
  cases e with
  | illegal => exact absurd rfl h
  | operand | reg | empty | range | busy | nocfg => decide

/-- `ILLEGAL` is raised for a word that decodes to no command, never by a command's rule (R230, R233). -/
theorem Raises.ne_illegal {s : State} {i : Instr} {e : CommandError} (h : Raises s i e) : e ≠ .illegal := by
  rintro rfl
  cases h

end Sys2Proof.Machine

/-! ## The obligations on errors and progress -/

namespace Sys2Proof.Claims
open Sys2Proof.Machine

/-- Settles O44: a ready command that responds with an error is one whose rule raised it, and raising leaves what the spec says. -/
theorem errorsWriteNothingElse : Obligations.ErrorsWriteNothingElse := by
  intro i s t hready hx herr
  rcases exec_ready ((ready_iff s _).mp hready).2 with ⟨u, d, -, hdone⟩ | ⟨e, hr, hraise⟩
  · cases hdone.symm.trans hx
    cases herr
  · cases hraise.symm.trans hx
    exact ⟨e.code.toNat, CommandError.two_le_code hr.ne_illegal, e.code_le_seven, raise_eq_errored s _ e⟩

/-- Settles O51: a reset edge, or a cycle that closes around its command phase. -/
theorem everyCycleSteps : Obligations.EveryCycleSteps := by
  intro s
  cases hrst : s.inputs.rst with
  | true => exact ⟨_, step_reset hrst⟩
  | false =>
    obtain ⟨u, -, hs⟩ := step_running hrst
    exact ⟨_, hs⟩

end Sys2Proof.Claims

/-! ## One cycle: the units a command writes, the log, and rest -/

namespace Sys2Proof.Machine
open Sys2Proof.Claims

/-! The units that a command writes (R265 step 2) -/

/-- What a command leaves: its effect with a response, or its start state where a hold keeps it, or its error (R233, R270). -/
theorem exec_cases {i : Instr} {s t : State} (hx : exec i s = .next t) :
    (∃ u d, Effect s i u ∧ t = u.respond false d) ∨ t = s ∨ ∃ e, Raises s i e ∧ t = s.raise (encode i) e := by
  cases hh : s.held (opcodeOf (encode i)) with
  | true => cases (exec_held hh).symm.trans hx; exact .inr (.inl rfl)
  | false =>
    obtain ⟨u, d, he, h⟩ | ⟨e, hr, h⟩ := exec_ready hh
    · cases h.symm.trans hx; exact .inl ⟨u, d, he, rfl⟩
    · cases h.symm.trans hx; exact .inr (.inr ⟨e, hr, rfl⟩)

section
variable {s u : State} {i : Instr} (he : Effect s i u)
include he

theorem Effect.up_source_eq (hi : isUnpacker i = false) : u.up = s.up ∧ u.source = s.source := by
  cases he with
  | upBitNew | upBitSame | upClr => cases hi
  | _ => exact ⟨rfl, rfl⟩

theorem Effect.fi_eq (hi : isFrameIndexer i = false) (hw : isWr i = false) : u.fi = s.fi := by
  cases he with
  | fiCfg | fiAddr | fiSplit | fiCount => cases hi
  | wrNbytes | wrFrm | wrG => cases hw
  | _ => rfl

theorem Effect.sc_eq (hi : i ≠ .scStart) (hw : isWr i = false) : u.sc = s.sc := by
  cases he with
  | scStart => exact absurd rfl hi
  | wrInterval | wrNframes => cases hw
  | _ => rfl

/-- A `WR` writes no scheduler register but `SC_INTERVAL` and `SC_NFRAMES` (R126). -/
theorem Effect.sc_eq_config (hw : isWr i = true) :
    u.sc = { s.sc with interval := u.sc.interval, nframes := u.sc.nframes } := by
  cases he with
  | scStart => cases hw
  | _ => rfl

theorem Effect.irqEn_eq (hw : isWr i = false) : u.irqEn = s.irqEn := by
  cases he with
  | wrIrqEn => cases hw
  | _ => rfl

/-- No command writes the time base, `SINK`, what the environment holds, or the log. -/
theorem Effect.environment_eq :
    u.now = s.now ∧ u.sink = s.sink ∧ u.cmds = s.cmds ∧ u.schedule = s.schedule ∧ u.clock = s.clock ∧ u.log = s.log := by
  cases he <;> exact ⟨rfl, rfl, rfl, rfl, rfl, rfl⟩

end

/-- The command phase of a cycle that accepts a command is what the command's execution leaves (R264). -/
theorem commandPhase_of_exec {s u : State} {w : Word} {i : Instr} (ha : s.accepted = some w) (hd : decode w = .ok i)
    (hx : exec i s = .next u) : CommandPhase s u := by
  have hw := encode_of_decode hd
  obtain ⟨-, -, hh, -⟩ := accepted_cases ha
  rw [← hw] at hh
  obtain ⟨v, d, he, h⟩ | ⟨e, hr, h⟩ := exec_ready hh
  · cases h.symm.trans hx; exact .done w i v d ha hd he
  · cases h.symm.trans hx; rw [hw]; exact .raised w i e ha hd hr

/-! What a cycle adds to the log (R281) -/

theorem ite_append_singleton {α : Type} (p : Prop) [Decidable p] (l : List α) (a : α) :
    (if p then l ++ [a] else l) = l ++ if p then [a] else [] := by
  split
  · rfl
  · exact (List.append_nil l).symm

section
variable {s : State} (hrst : s.inputs.rst = false)
include hrst

theorem nextLog_responses :
    s.nextLog.responses = s.log.responses ++ if s.rsp.v && s.inputs.rspReady then [s.rspPort] else [] := by
  simp only [State.nextLog, rspTaken_eq hrst]
  exact ite_append_singleton _ _ _

theorem nextLog_appended :
    s.nextLog.appended = s.log.appended ++ if s.pk.outV && s.inputs.boReady then [s.pk.outbuf] else [] := by
  simp only [State.nextLog, boTaken_eq hrst]
  exact ite_append_singleton _ _ _

theorem nextLog_renders :
    s.nextLog.renders = s.log.renders ++ if s.sc.st = .render then [(s.log.cycle, s.sc.fidx)] else [] := by
  simp only [State.nextLog, State.rdReq, hrst, Bool.not_false, Bool.and_true, beq_iff_eq]
  exact ite_append_singleton _ _ _

end

theorem nextLog_gates (s : State) :
    s.nextLog.gates = s.log.gates ++
      if s.sc.st = .waitReady ∧ s.inputs.frameReady = true then [(s.log.cycle, s.sc.fidx)] else [] :=
  ite_append_singleton _ _ _

/-- The bytes consumed and the bytes still to come are together as many as before the cycle (R27, R281). -/
theorem CommandPhase.consumed_add_length {s u : State} (hu : CommandPhase s u) :
    s.nextLog.consumed + u.source.length = s.log.consumed + s.source.length := by
  obtain ⟨hb, hsrc⟩ | ⟨hb, hsrc⟩ := hu.source_cases
  · simp [State.nextLog, hb, hsrc]; omega
  · simp [State.nextLog, hb, hsrc]

/-! A core at rest (R281) -/

/-- No command is presented, no response or byte waits, and the scheduler is stopped. -/
structure State.AtRest (s : State) : Prop where
  presented : s.presented = none
  rsp : s.rsp.v = false
  outV : s.pk.outV = false
  stopped : s.sc.st.running = false

/-- A cycle at rest is observed by its number alone. -/
theorem State.AtRest.nextLog_eq {s : State} (h : s.AtRest) (hrst : s.inputs.rst = false) :
    s.nextLog = { s.log with cycle := s.log.cycle + 1 } := by
  have hb : s.biReady = false := by simp [State.biReady, State.accepted, h.presented]
  have hrender : s.sc.st ≠ .render := fun hst => by simpa [hst, SchedState.running] using h.stopped
  have hwait : s.sc.st ≠ .waitReady := fun hst => by simpa [hst, SchedState.running] using h.stopped
  simp [State.nextLog, rspTaken_eq hrst, boTaken_eq hrst, State.rdReq, h.rsp, h.outV, hb, hrender, hwait]

/-- A cycle at rest changes nothing but the time base, the inputs still to come and the number of the cycle. -/
theorem State.AtRest.step_eq {s t : State} (h : s.AtRest) (hrst : s.inputs.rst = false) (hs : step s = .next t) :
    t = { s with
      now := t.now, schedule := t.schedule, clock := t.clock
      log := { s.log with cycle := s.log.cycle + 1 } } := by
  have ha : s.accepted = none := by simp [State.accepted, h.presented]
  cases (step_idle hrst ha).symm.trans hs
  have hpk : (s.closeCycle s).pk = s.pk := by rw [closeCycle_pk_cases, boTaken_eq hrst, h.outV]; rfl
  have hrsp : (s.closeCycle s).rsp = s.rsp := by rw [closeCycle_rsp_cases, rspTaken_eq hrst, h.rsp]; rfl
  have hsink : (s.closeCycle s).sink = s.sink := by rw [State.closeCycle_sink, boTaken_eq hrst, h.outV]; rfl
  have hsc : (s.closeCycle s).sc = s.sc := by simp [State.mergeSched, h.stopped]
  have hstatus : (s.closeCycle s).status = s.status := by
    simp [State.schedStep, schedStep_stopped h.stopped, setStatus]
  have hcmds : (s.closeCycle s).cmds = s.cmds := by simp [ha]
  rw [← h.nextLog_eq hrst]
  calc s.closeCycle s
      = { s.closeCycle s with
          up := s.up, fi := s.fi, irqEn := s.irqEn, errCode := s.errCode, errCmd := s.errCmd
          source := s.source, log := s.nextLog } := rfl
    _ = _ := by simp only [hpk, hrsp, hsink, hsc, hstatus, hcmds]

end Sys2Proof.Machine

/-! ## The obligations on reset, command writes, and the log -/

namespace Sys2Proof.Claims
open Sys2Proof.Machine

/-- Settles O39: the edge keeps the registers of the scheduler's step, whichever command either cycle accepts. -/
theorem runningSchedulerIgnoresCommands : Obligations.RunningSchedulerIgnoresCommands := by
  intro s s' t t' hrun hsc hnow hin hrst hs hs'
  have hrun' : Running s' := by rwa [Running, ← hsc]
  obtain ⟨v, hv, hvsc, -⟩ := step_of_running hrst hrun
  obtain ⟨v', hv', hvsc', -⟩ := step_of_running (hin ▸ hrst) hrun'
  cases hs.symm.trans hv
  cases hs'.symm.trans hv'
  rw [hvsc, hvsc', hsc, hnow, hin]

/-- Settles O45: a held command or an error writes no unit, and each command's effect writes its own. -/
theorem commandsWriteTheirUnit : Obligations.CommandsWriteTheirUnit := by
  intro i s t hx
  obtain ⟨u, d, he, rfl⟩ | rfl | ⟨e, -, rfl⟩ := exec_cases hx
  · exact ⟨he.pk_eq, he.up_source_eq, he.fi_eq, he.sc_eq, he.sc_eq_config, he.irqEn_eq, he.environment_eq⟩
  all_goals
    exact ⟨fun _ => rfl, fun _ => ⟨rfl, rfl⟩, fun _ _ => rfl, fun _ _ => rfl, fun _ => rfl, fun _ => rfl,
      rfl, rfl, rfl, rfl, rfl, rfl⟩

/-- Settles O56: `rst = 1` masks every output, and its edge leaves R54's values. -/
theorem resetEdgeResets : Obligations.ResetEdgeResets := by
  intro s hrst
  have hb : s.biReady = false := Bool.eq_false_iff.mpr fun h => by
    obtain ⟨-, -, -, hrst'⟩ := accepted_cases ((biReady_iff s).mp h).1
    simp [hrst] at hrst'
  refine ⟨fun w => ?_, ?_, ?_, hb, ?_, ?_, s.resetEdge, step_reset hrst, rfl, rfl, rfl, rfl, rfl, rfl, rfl, rfl, rfl, rfl,
    rfl, rfl⟩
  · simp [State.cmdReady, hrst]
  · simp [State.rspValid, hrst]
  · simp [State.boValid, hrst]
  · simp [State.rdReq, hrst]
  · simp [State.irq, hrst]

/-- Settles O59: the edge stores the next log, whose appended byte is the one `SINK` takes and whose count is what left `SOURCE`. -/
theorem logRecordsCycle : Obligations.LogRecordsCycle := by
  intro s t hs
  obtain ⟨hrst, rfl⟩ | ⟨hrst, u, hu, rfl⟩ := step_phases hs
  · exact ⟨fun _ => rfl, fun h => by simp [hrst] at h⟩
  · have hclose := closes_closeCycle (u := u) hrst fun hr => by
      rw [hu.sc_eq_of_running ((running_iff s).mp hr)]
      exact ⟨rfl, rfl⟩
    exact ⟨fun h => by simp [hrst] at h, fun _ => ⟨rfl, nextLog_responses hrst,
      ⟨_, hclose.sink, nextLog_appended hrst⟩, hu.consumed_add_length, nextLog_renders hrst, nextLog_gates s⟩⟩

/-- Settles O60, by induction on the cycles since the end point: each of them begins at rest. -/
theorem endedRunIsFinal : Obligations.EndedRunIsFinal := by
  intro f n m hrun hend hnm huncut
  induction m, hnm using Nat.le_induction with
  | base => simp
  | succ m hnm ih =>
    have ih := ih fun k hnk hkm => huncut k hnk (Nat.lt_succ_of_lt hkm)
    have hrest : (f m).AtRest := by
      refine ⟨hend.noCommandLeft m hnm, ?_, ?_, ?_⟩ <;> rw [ih]
      · exact hend.responsesTaken
      · exact hend.bytesInSink
      · exact hend.schedulerStopped
    have hstep := hrest.step_eq (huncut m hnm (Nat.lt_succ_self m)) (hrun m)
    rw [ih] at hstep
    rw [hstep, Nat.succ_sub hnm]
    rfl

/-- Settles O48: the cycle closes around the state that the command leaves, and no response was waiting to be taken. -/
theorem stepRunsDecodedCommand : Obligations.StepRunsDecodedCommand := by
  intro s u w rest i hp hr hd hx
  have ha := accepted_of_ready hp hr
  obtain ⟨hrst, hv, -⟩ := hr
  refine ⟨s.closeCycle u, by rw [step_command hrst ha hd, hx]; rfl, ?_, ?_⟩
  · have hc := closes_closeCycle (u := u) hrst fun hrun => by
      rw [(commandPhase_of_exec ha hd hx).sc_eq_of_running ((running_iff s).mp hrun)]
      exact ⟨rfl, rfl⟩
    rw [ha, hp.2] at hc
    exact hc
  · rw [closeCycle_rsp_cases, rspTaken_eq hrst, hv]
    rfl

end Sys2Proof.Claims
